-- ==== Sys2Proof/Word.lean ====
section
/-! DEFINITION. The word types of the block (00_scope.md R7, R11) and the shape of the table RAM (10_state.md R37). -/

namespace Sys2Proof

/-- One byte of buffer memory or of a command stream. -/
abbrev Byte := BitVec 8

/-- A register value: REG_W = RESULT_W = LEN_W = 32 bits (R7). -/
abbrev Word := BitVec 32

/-- A 64-bit quantity: ADDR_W = ACC_W = 64 bits (R7), ERRINFO and DATA (10_state.md R20). -/
abbrev DWord := BitVec 64

/-- The table RAM, TABLE_ROWS = 8 rows of TABLE_COLS = 256 entries of 32 bits (R7, 10_state.md R37). -/
abbrev Table := Vector (Vector Word 256) 8

end Sys2Proof
end

