-- ==== Sys2Proof/Syntax.lean ====
section
/-! DEFINITION. The command words of the block, one constructor per row of spec/opcode_table.json (30_encoding.md R93). -/

namespace Sys2Proof

/-- A command. Commands carry no immediates and no register specifiers: every operand comes from a fixed host register
(30_encoding.md R92), so no constructor has an argument. COMPUTE is two rows of the table, one for each value of HW. -/
inductive Instr where
  /-- Build the lookup table (40_table_generation.md R114). -/
  | tblgen
  /-- Clear the error state (43_host_access_and_control.md R204). -/
  | clrerr
  /-- Enter the complemented domain (41_accumulator_ops.md R132). -/
  | init
  /-- Reduce one byte (41_accumulator_ops.md R134). -/
  | byte
  /-- Reduce eight bytes (41_accumulator_ops.md R137). -/
  | fold8
  /-- Exit the complemented domain (41_accumulator_ops.md R141). -/
  | final
  /-- Checksum a buffer on the software path (42_compute_dispatch.md R162). -/
  | computeSw
  /-- Checksum a buffer on the hardware path (42_compute_dispatch.md R171). -/
  | computeHw
deriving DecidableEq, Repr

end Sys2Proof
end

