-- ==== Sys2Proof/WellFormed.lean ====
section
/-! DEFINITION. The command format CMD32 (30_encoding.md R90) and the checks that make its fields a legal command (R95).
An Instr has no operand, so no term of it is ill-formed; the checks are on the format's fields. -/

namespace Sys2Proof

/-- The three fields of a command word (30_encoding.md R90). -/
structure Cmd32 where
  /-- Bits 7:0, the operation code. -/
  op : BitVec 8
  /-- Bit 8, the path select. -/
  hw : Bool
  /-- Bits 31:9, reserved. -/
  rsv : BitVec 23
deriving DecidableEq, Repr

/-- OP is one of the assigned operation codes (30_encoding.md R95). -/
def Cmd32.opAssigned (c : Cmd32) : Bool :=
  c.op == 0x01#8 || c.op == 0x02#8 || c.op == 0x10#8 || c.op == 0x11#8 || c.op == 0x12#8 || c.op == 0x13#8 || c.op == 0x20#8

/-- HW = 1 is legal only with OP = 0x20 (30_encoding.md R90, R95). -/
def Cmd32.hwLegal (c : Cmd32) : Bool := !c.hw || c.op == 0x20#8

/-- The reserved field must be 0 (30_encoding.md R90, R95). -/
def Cmd32.rsvClear (c : Cmd32) : Bool := c.rsv == 0#23

/-- The fields form a legal command: every check passes (30_encoding.md R95). -/
def Cmd32.wellFormed (c : Cmd32) : Bool := c.opAssigned && c.hwLegal && c.rsvClear

/-- Every Instr is well-formed: it carries no operand a check could refuse (30_encoding.md R92). -/
def Instr.wellFormed : Instr → Bool
  | .tblgen => true
  | .clrerr => true
  | .init => true
  | .byte => true
  | .fold8 => true
  | .final => true
  | .computeSw => true
  | .computeHw => true

end Sys2Proof
end

