-- ==== Sys2Proof/Decode.lean ====
section
/-! DEFINITION. The decoder of 30_encoding.md R94, total on all 32-bit words, and the encoder from the fields of R93.
A command is moved whole on the host port (20_memory.md R65), so the decoder reads one 32-bit word, not a list of bytes. -/

namespace Sys2Proof

/-- Why a word is no command. Every illegal word behaves identically (30_encoding.md R96). -/
inductive DecodeError where
  /-- The word is not in the table of R93. -/
  | illegal
deriving DecidableEq, Repr

/-- Decoding by exact match of all 32 bits (30_encoding.md R94). -/
def decode (w : Word) : Except DecodeError Instr :=
  match w.toNat with
  | 0x00000001 => .ok .tblgen
  | 0x00000002 => .ok .clrerr
  | 0x00000010 => .ok .init
  | 0x00000011 => .ok .byte
  | 0x00000012 => .ok .fold8
  | 0x00000013 => .ok .final
  | 0x00000020 => .ok .computeSw
  | 0x00000120 => .ok .computeHw
  | _ => .error .illegal

/-- The fields of a command word: OP = bits 7:0, HW = bit 8, RSV = bits 31:9 (30_encoding.md R90). -/
def Cmd32.ofWord (w : Word) : Cmd32 := ⟨w.extractLsb' 0 8, w.getLsbD 8, w.extractLsb' 9 23⟩

/-- The command word with the given fields, most significant first: RSV, HW, OP (30_encoding.md R90). -/
def Cmd32.toWord (c : Cmd32) : Word := c.rsv ++ BitVec.ofBool c.hw ++ c.op

/-- The OP and HW columns of the table of 30_encoding.md R93; RSV is 0 in every row. -/
def Instr.fields : Instr → Cmd32
  | .tblgen => ⟨0x01#8, false, 0#23⟩
  | .clrerr => ⟨0x02#8, false, 0#23⟩
  | .init => ⟨0x10#8, false, 0#23⟩
  | .byte => ⟨0x11#8, false, 0#23⟩
  | .fold8 => ⟨0x12#8, false, 0#23⟩
  | .final => ⟨0x13#8, false, 0#23⟩
  | .computeSw => ⟨0x20#8, false, 0#23⟩
  | .computeHw => ⟨0x20#8, true, 0#23⟩

/-- The command word of an instruction (30_encoding.md R93). -/
def encode (i : Instr) : Word := i.fields.toWord

/-- What the decoder reads from an instruction of nbits bits numbered as spec/opcode_table.json numbers them: the whole
command is one 32-bit word, its bits above nbits are 0, and a value that does not fit in 32 bits is no command. -/
def decodeTableWord (nbits w : Nat) : Option Instr :=
  if w % 2 ^ nbits < 2 ^ 32 then
    match decode (BitVec.ofNat 32 (w % 2 ^ nbits)) with
    | .ok i => some i
    | .error _ => none
  else none

end Sys2Proof
end

