-- ==== Sys2Proof/Config.lean ====
section
/-! DEFINITION. What is fixed for one instance: the polynomial, the open parameters of 92_eei_decisions.md section 1 that are
not part of State, and the free values. An opaque constant has no body: nothing can be proved of its value. -/

namespace Sys2Proof

/-- POLY, hard-wired: the bit-reflected Castagnoli polynomial (00_scope.md R2, R7; 10_state.md R25). -/
def Config.poly : Word := 0x82F63B78#32

/-- The open parameter HW_PRESENT (00_scope.md R9), the strap at the first reset. DESIGN CHOICE: log entry 8. -/
opaque Config.hwPresent : Bool

/-- The page of the register window: BASE without its 12 low bits. DESIGN CHOICE: log entry 13. -/
opaque Config.basePage : BitVec 52

/-- The open parameter BASE, a multiple of 0x1000 (00_scope.md R8). -/
def Config.base : DWord := Config.basePage ++ 0#12

/-- The open parameter mem where nothing has written: the byte buffer memory holds at an address (92_eei_decisions.md
section 1; 93_implementation_defined.md K2.13). Log entry 3. -/
opaque Config.bufferByte : DWord → Byte

/-- Free value, the "HW draw" of 42_compute_dispatch.md R174: which refused byte the hardware path reports. Log entry 5. -/
opaque Config.hwDraw : Nat → Nat

/-- Free value: RESULT of a command whose buffer was written while it ran (20_memory.md R77). Log entry 4. -/
opaque Config.freeResult : Nat → Word

/-- Free value: ACC after a refused read of the software path (42_compute_dispatch.md R169). Log entry 6. -/
opaque Config.freeAcc : Nat → DWord

end Sys2Proof
end

