-- ==== Sys2Proof/Machine/Port.lean ====
section
/-! DEFINITION. The host's port: the register map (10_state.md R23), one host access (43_host_access_and_control.md R200),
and the inputs that State.inputs lists, one for each move another agent or the engine can make (00_scope.md R6). -/

namespace Sys2Proof.Machine

/-- The register names of 10_state.md R23; a reserved offset and a table entry carry which one. -/
inductive Reg where
  | poly | status | cmd | seed | len | addrLo | addrHi | dataLo | dataHi | result | errinfoLo | errinfoHi
  /-- Offsets 0x030 to 0xFFC (R34); the offset below 0x1000. -/
  | reserved (off : BitVec 12)
  /-- The TABLE window (R35): row j, column i. -/
  | table (j : BitVec 3) (i : Byte)
deriving DecidableEq, Repr

/-- The offset of a register from BASE (10_state.md R23; R35 for the TABLE window). -/
def Reg.offset : Reg → DWord
  | .poly => 0x000
  | .status => 0x004
  | .cmd => 0x008
  | .seed => 0x00C
  | .len => 0x010
  | .addrLo => 0x014
  | .addrHi => 0x018
  | .dataLo => 0x01C
  | .dataHi => 0x020
  | .result => 0x024
  | .errinfoLo => 0x028
  | .errinfoHi => 0x02C
  | .reserved off => off.setWidth 64
  | .table j i => 0x1000 + 0x400 * j.setWidth 64 + 4 * i.setWidth 64

/-- The register at a 4-byte-aligned offset of the window (10_state.md R23). In the TABLE window
j = (off - 0x1000)[12:10] and i = (off - 0x1000)[9:2] (R35). -/
def Reg.ofOffset (off : DWord) : Reg :=
  match off.toNat with
  | 0x000 => .poly
  | 0x004 => .status
  | 0x008 => .cmd
  | 0x00C => .seed
  | 0x010 => .len
  | 0x014 => .addrLo
  | 0x018 => .addrHi
  | 0x01C => .dataLo
  | 0x020 => .dataHi
  | 0x024 => .result
  | 0x028 => .errinfoLo
  | 0x02C => .errinfoHi
  | n =>
    if n < 0x1000 then .reserved (off.setWidth 12)
    else .table ((off - 0x1000#64).extractLsb' 10 3) ((off - 0x1000#64).extractLsb' 2 8)

/-- The width of a host access; only 32 bits is legal (20_memory.md R68). -/
inductive Width where
  | w8 | w16 | w32 | w64
deriving DecidableEq, Repr

/-- What a host access does. The value of a write that is not 32 bits wide has no effect (R68), so 32 bits hold any value
that matters. -/
inductive HostOp where
  | read
  | write (v : Word)
deriving DecidableEq, Repr

/-- One host access (43_host_access_and_control.md R200), at a bus address given relative to BASE (00_scope.md R8). -/
structure HostAccess where
  /-- The bus address minus BASE, modulo 2^64 (log entry 13). -/
  off : DWord
  width : Width
  op : HostOp
deriving DecidableEq, Repr

/-- The access a bus master makes at bus address a (00_scope.md R8). -/
def HostAccess.atAddress (a : DWord) (width : Width) (op : HostOp) : HostAccess := ⟨a - Config.base, width, op⟩

/-- The access addresses the block: its address lies in [BASE, BASE + 0x3000) (43_host_access_and_control.md R200). -/
def HostAccess.inWindow (a : HostAccess) : Bool := decide (a.off.toNat < 0x3000)

/-- The access is one the port carries: 32 bits wide at an offset that is a multiple of 4 (20_memory.md R68). -/
def HostAccess.legal (a : HostAccess) : Bool := decide (a.width = .w32) && decide (a.off.toNat % 4 = 0)

/-- WR of 30_encoding.md R98: a 32-bit write of v to a register. -/
def HostAccess.wr (r : Reg) (v : Word) : HostAccess := ⟨r.offset, .w32, .write v⟩

/-- RD of 30_encoding.md R98: a 32-bit read of a register. -/
def HostAccess.rd (r : Reg) : HostAccess := ⟨r.offset, .w32, .read⟩

/-- The host port's answer to an access (43_host_access_and_control.md R200, R206). -/
inductive Response where
  /-- The value a read returned. -/
  | value (v : Word)
  /-- A write was carried. -/
  | done
  /-- A bus error: no data and no other effect (00_scope.md R18). -/
  | busError
deriving DecidableEq, Repr

/-- One move of the world, taken in the order State.inputs lists them (log entry 1). -/
inductive Input where
  /-- A host access (R200). -/
  | host (a : HostAccess)
  /-- The pseudo-instruction WAIT (30_encoding.md R99): poll STATUS until BUSY reads 0 (log entry 14). -/
  | wait
  /-- The engine's turn: it takes its step if BUSY = 1 (42_compute_dispatch.md R176). -/
  | engine
  /-- Another master writes one byte of buffer memory (R205; log entry 3). -/
  | bufferWrite (addr : DWord) (b : Byte)
  /-- An instant at which the reset input is asserted, with the strap HW_PRESENT at the given value and the host access that
  arrives at it, if one does (70_reset_and_hazards.md R260, R262; log entries 8, 16). The input is held over consecutive
  moves of this kind and is released when another move follows. -/
  | reset (hwPresent : Bool) (access : Option HostAccess)
deriving DecidableEq, Repr

end Sys2Proof.Machine
end

