-- ==== Sys2Proof/Machine/State.lean ====
section
/-! DEFINITION. The state of one instance of the block (10_state.md R20), its reset value (R48), and the reasons a step stops. -/

namespace Sys2Proof.Machine

/-- PHASE (10_state.md R43). Value 7 is never produced, so it has no constructor. -/
inductive Phase where
  | idle | head | bulk | tail | finish | tblgen | hwrun
deriving DecidableEq, Repr

/-- ERRCODE (60_exceptions.md R221). Codes 8 to 15 are never recorded, so they have no constructor. -/
inductive ErrCode where
  | none | illegalCmd | cmdWhileBusy | tableNotReady | accNotValid | hwUnavailable | range | busError
deriving DecidableEq, Repr

/-- The bytes written to buffer memory, by address. An unlisted address holds the platform's own byte (log entry 3). -/
abbrev Cells := List Host.Cell

/-- The addresses from lo up to, not including, hi. -/
structure Span where
  lo : Nat
  hi : Nat
deriving DecidableEq, Repr

/-- The addresses of some spans. -/
abbrev Spans := List Span

/-- Buffer memory as the platform gives it (92_eei_decisions.md section 1, log entry 2): two parameters, neither of which
says anything of the other. -/
structure Memory where
  /-- The parameter mem (20_memory.md R61). -/
  cells : Cells
  /-- The parameter MemAdmit, per byte (00_scope.md R10; 20_memory.md R83). No move changes it. -/
  admitted : Spans
deriving DecidableEq, Repr

/-- Everything the spec gives the machine (10_state.md R20), the platform parameters that vary with a run, and the model's own
fields. POLY is hard-wired (Config.poly); STATUS is a view of the flags (statusWord); CMD holds no state (R33). -/
structure State where
  /-- TABLE (R37). -/
  table : Table
  /-- TBL_VALID (R40). -/
  tblValid : Bool
  /-- ACC (R38). -/
  acc : DWord
  /-- ACC_VALID (R39). -/
  accValid : Bool
  /-- HW_AVAIL, the strap (R26, R49). -/
  hwAvail : Bool
  /-- SEED (R27). -/
  seed : Word
  /-- LEN (R28). -/
  len : Word
  /-- ADDR = ADDR_HI ++ ADDR_LO (R29). -/
  addr : DWord
  /-- DATA = DATA_HI ++ DATA_LO (R30). -/
  data : DWord
  /-- RESULT (R31). -/
  result : Word
  /-- ERRCODE (R42). -/
  errcode : ErrCode
  /-- ERROVF (R42). -/
  errovf : Bool
  /-- ERRINFO = ERRINFO_HI ++ ERRINFO_LO (R32). -/
  errinfo : DWord
  /-- BUSY (R41). -/
  busy : Bool
  /-- PHASE (R43). -/
  phase : Phase
  /-- CUR, the address of the next buffer byte (R22, R45). -/
  cur : DWord
  /-- REM, the number of buffer bytes not yet consumed (R22, R45). -/
  rem : Word
  /-- LSEED, the seed latched for the hardware path (R45). -/
  lseed : Word
  /-- The platform's buffer memory: MemAdmit and mem of 92_eei_decisions.md section 1 (log entry 2). -/
  mem : Memory
  /-- The model's own: the moves still to come, first first (log entry 1). -/
  inputs : List Input
  /-- The model's own: the host port's answer to the last access (R206). -/
  response : Option Response
  /-- The ghost flag FAULTED (60_exceptions.md R224): an error was recorded at some time. -/
  faulted : Bool
  /-- The model's own ghost: a host access got a bus error at some time (60_exceptions.md R229; log entry 11). -/
  hostFaulted : Bool
  /-- The model's own ghost: ADDR as latched by the last COMPUTE accepted (20_memory.md R60). -/
  bufAddr : DWord
  /-- The model's own ghost: LEN as latched by the last COMPUTE accepted (20_memory.md R60). -/
  bufLen : Word
  /-- The model's own ghost: a byte of the latched buffer was written while the command ran (20_memory.md R77; log entry 4). -/
  dutyBroken : Bool
  /-- The model's own: the index of the next free value. -/
  draws : Nat
deriving DecidableEq, Repr

/-- Reasons a step stops. Each is raised by an engine step, only in a state that 10_state.md R46 says no step reaches; each is
safe (log entry 15). -/
inductive Fault where
  /-- Raised by the engine with BUSY = 1 and PHASE = IDLE: no rule gives it a step (42_compute_dispatch.md R176). Safe. -/
  | noEnabledStep
  /-- Raised by the BULK step when CUR is no multiple of 8: a misaligned 8-byte read has no defined behaviour because it
  cannot occur (20_memory.md R67). Safe. -/
  | misalignedRead
  /-- Raised by a HEAD, BULK or TAIL step when REM is less than the bytes it would consume: the subtraction is on natural
  numbers (00_scope.md R12) and has no value. Safe. -/
  | countExhausted
deriving DecidableEq, Repr

/-- Reasons an instruction has no meaning. -/
inductive Refusal where
  /-- Raised by exec for an instruction that has no meaning yet; no arm raises it. Safe. -/
  | notModelled (mnemonic : String)
deriving DecidableEq, Repr

/-- The outcome of one step of this machine. -/
abbrev Result := Host.Outcome State Fault Refusal

/-- The block right after reset (10_state.md R48). TABLE, ACC, CUR, REM and LSEED are unspecified there; DESIGN CHOICE: 0
(log entry 7). HW_AVAIL is the open parameter HW_PRESENT (log entry 8). Memory has no byte written and answers every read, and
the model's own fields are empty, false or 0 (log entry 9). -/
def State.reset : State where
  table := Vector.replicate 8 (Vector.replicate 256 0#32)
  tblValid := false
  acc := 0#64
  accValid := false
  hwAvail := Config.hwPresent
  seed := 0#32
  len := 0#32
  addr := 0#64
  data := 0#64
  result := 0#32
  errcode := .none
  errovf := false
  errinfo := 0#64
  busy := false
  phase := .idle
  cur := 0#64
  rem := 0#32
  lseed := 0#32
  mem := ⟨[], [⟨0, 2 ^ 64⟩]⟩
  inputs := []
  response := none
  faulted := false
  hostFaulted := false
  bufAddr := 0#64
  bufLen := 0#32
  dutyBroken := false
  draws := 0

end Sys2Proof.Machine
end

