-- ==== Sys2Proof/Machine/Flags.lean ====
section
/-! DEFINITION. The encodings of the status fields and the STATUS word (10_state.md R26, R43; 60_exceptions.md R221). -/

namespace Sys2Proof.Machine

/-- PHASE as STATUS[18:16] shows it (10_state.md R43). -/
def phaseBits : Phase → BitVec 3
  | .idle => 0
  | .head => 1
  | .bulk => 2
  | .tail => 3
  | .finish => 4
  | .tblgen => 5
  | .hwrun => 6

/-- ERRCODE as STATUS[11:8] shows it (60_exceptions.md R221). -/
def errBits : ErrCode → BitVec 4
  | .none => 0
  | .illegalCmd => 1
  | .cmdWhileBusy => 2
  | .tableNotReady => 3
  | .accNotValid => 4
  | .hwUnavailable => 5
  | .range => 6
  | .busError => 7

/-- A flag as bit n of a 32-bit word. -/
def flagBit (f : Bool) (n : Nat) : Word := (BitVec.ofBool f).setWidth 32 <<< n

/-- The value a host read of STATUS returns (43_host_access_and_control.md R201); the reserved bits read 0 (10_state.md R26). -/
def statusWord (s : State) : Word :=
  (phaseBits s.phase).setWidth 32 <<< 16 ||| (errBits s.errcode).setWidth 32 <<< 8 ||| flagBit s.errovf 4 |||
    flagBit s.hwAvail 3 ||| flagBit s.accValid 2 ||| flagBit s.tblValid 1 ||| flagBit s.busy 0

/-- Norm(TAIL, cur, rem) (42_compute_dispatch.md R164). -/
def normTail (_cur : DWord) (rem : Word) : Phase := if 0 < rem.toNat then .tail else .finish

/-- Norm(BULK, cur, rem) (42_compute_dispatch.md R164). -/
def normBulk (cur : DWord) (rem : Word) : Phase := if 8 ≤ rem.toNat then .bulk else normTail cur rem

/-- Norm(HEAD, cur, rem) (42_compute_dispatch.md R164). -/
def normHead (cur : DWord) (rem : Word) : Phase :=
  if rem.toNat = 0 then .finish else if cur.toNat % 8 ≠ 0 then .head else normBulk cur rem

end Sys2Proof.Machine
end

