-- ==== Sys2Proof/Machine/Memory.lean ====
section
/-! DEFINITION. Buffer memory: the canonical form of its lists, the engine's reads (20_memory.md R61, R63, R83) and another
master's write (43_host_access_and_control.md R205). The block itself has no store path (R62). -/

namespace Sys2Proof.Machine

/-- The canonical form: every address above lo - 1, strictly rising, inside the 2^64-byte buffer space (10_state.md R47). -/
def Cells.wfFrom : Nat → Cells → Bool
  | _, [] => true
  | lo, (a, _) :: m => decide (lo ≤ a) && decide (a < 2 ^ 64) && Cells.wfFrom (a + 1) m

/-- The byte written at address k, if one was. -/
def Cells.lookup : Cells → Nat → Option Byte
  | [], _ => none
  | (a, b) :: m, k => if a = k then some b else Cells.lookup m k

/-- The list with the byte at address k set to b. -/
def Cells.insert : Cells → Nat → Byte → Cells
  | [], k, b => [(k, b)]
  | (a, c) :: m, k, b =>
    if k < a then (k, b) :: (a, c) :: m
    else if k = a then (k, b) :: m
    else (a, c) :: Cells.insert m k b

/-- The canonical form: no span empty, strictly rising, with a gap between any two, inside the buffer space. -/
def Spans.wfFrom : Nat → Spans → Bool
  | _, [] => true
  | lo, p :: ps => decide (lo ≤ p.lo) && decide (p.lo < p.hi) && decide (p.hi ≤ 2 ^ 64) && Spans.wfFrom (p.hi + 1) ps

/-- Address k lies in one of the spans. -/
def Spans.covers : Spans → Nat → Bool
  | [], _ => false
  | p :: ps, k => (decide (p.lo ≤ k) && decide (k < p.hi)) || Spans.covers ps k

/-- The canonical form of memory. An unlisted address has no byte written, which no entry can equal. -/
def Memory.wf (m : Memory) : Bool := m.cells.wfFrom 0 && m.admitted.wfFrom 0

/-- mem(addr): the byte memory holds at addr, whether or not a read of it is answered (20_memory.md R61). -/
def Memory.contents (m : Memory) (addr : DWord) : Byte := (m.cells.lookup addr.toNat).getD (Config.bufferByte addr)

/-- Readable(addr) = MemAdmit(addr, 1) (20_memory.md R83). -/
def Memory.readable (m : Memory) (addr : DWord) : Bool := m.admitted.covers addr.toNat

/-- MemRead(addr, 1) (00_scope.md R14): none where MemAdmit(addr, 1) is false. -/
def Memory.read (m : Memory) (addr : DWord) : Option Byte := if m.readable addr then some (m.contents addr) else none

/-- Another master writes the byte at addr. Which reads memory answers stays as it was (00_scope.md R10). -/
def Memory.write (m : Memory) (addr : DWord) (b : Byte) : Memory := { m with cells := m.cells.insert addr.toNat b }

/-- The bytes at addr, addr + 1, … (n of them), if every one is readable. Addresses are 64 bits wide; no buffer of an
accepted command wraps (42_compute_dispatch.md R179). -/
def Memory.readRange (m : Memory) : DWord → Nat → Option (List Byte)
  | _, 0 => some []
  | a, n + 1 =>
    match m.read a, Memory.readRange m (a + 1#64) n with
    | some b, some bs => some (b :: bs)
    | _, _ => none

/-- The addresses among addr, addr + 1, … (n of them) whose reads are refused (42_compute_dispatch.md R174). -/
def Memory.refused (m : Memory) : DWord → Nat → List DWord
  | _, 0 => []
  | a, n + 1 => if m.readable a then Memory.refused m (a + 1#64) n else a :: Memory.refused m (a + 1#64) n

/-- The little-endian value of a list of bytes, the first the least significant (00_scope.md R14; 20_memory.md R63). -/
def littleEndian : List Byte → Nat
  | [] => 0
  | b :: bs => b.toNat + 256 * littleEndian bs

/-- MemRead(addr, 8) (20_memory.md R63): the 8 bytes assembled little-endian, admitted iff every byte is (R83). -/
def Memory.read8 (m : Memory) (addr : DWord) : Option DWord :=
  match m.readRange addr 8 with
  | some bs => some (BitVec.ofNat 64 (littleEndian bs))
  | none => none

end Sys2Proof.Machine
end

