-- ==== Sys2Proof/Machine/Crc.lean ====
section
/-! DEFINITION. The arithmetic of the block: the table (40_table_generation.md R111-R113), the byte step and the fold
(41_accumulator_ops.md R133, R136), the finish (R139) and the reference checksum (42_compute_dispatch.md R160). Everything is
unsigned XOR, shift, truncation and lookup (R140). -/

namespace Sys2Proof.Machine

/-- One iteration of R111: if the low bit is set, shift right and XOR the polynomial; else shift right. -/
def crcShift (c : Word) : Word := if c.getLsbD 0 then (c >>> 1) ^^^ Config.poly else c >>> 1

/-- n iterations of R111. -/
def crcShifts : Nat → Word → Word
  | 0, c => c
  | n + 1, c => crcShifts n (crcShift c)

/-- Row0(i) (40_table_generation.md R111). -/
def row0 (i : Byte) : Word := crcShifts 8 (i.setWidth 32)

/-- One step of R112 from the entry of the row before: row 0 of its low byte, XOR it shifted right 8 bits. -/
def nextRow (p : Word) : Word := row0 (p.setWidth 8) ^^^ (p >>> 8)

/-- Entry i of row j of GenTable() (40_table_generation.md R111, R112). -/
def tableEntry : Nat → Byte → Word
  | 0, i => row0 i
  | j + 1, i => nextRow (tableEntry j i)

/-- The vector f 0, …, f (n - 1). -/
def vectorOf {α : Type} (n : Nat) (f : Nat → α) : Vector α n := ⟨⟨(List.range n).map f⟩, by simp⟩

/-- GenTable() (40_table_generation.md R113), a constant. -/
def genTable : Table := vectorOf 8 fun j => vectorOf 256 fun i => tableEntry j (BitVec.ofNat 8 i)

/-- T[j][i] (00_scope.md R13). -/
def entry (t : Table) (j : BitVec 3) (i : Byte) : Word := (t[j.toNat]'(by omega))[i.toNat]'(by omega)

/-- byte_k(w) = w[8k+7:8k] (00_scope.md R12). -/
def byteOf (k : Nat) (w : DWord) : Byte := w.extractLsb' (8 * k) 8

/-- The byte step (41_accumulator_ops.md R133). -/
def byteStep (t : Table) (acc : DWord) (b : Byte) : DWord :=
  (entry t 0#3 (byteOf 0 acc ^^^ b)).setWidth 64 ^^^ (acc >>> 8)

/-- The eight independent lookups of a fold: lane k indexes row 7 - k (41_accumulator_ops.md R135). -/
def foldLanes (t : Table) (x : DWord) : Word :=
  entry t 7#3 (byteOf 0 x) ^^^ entry t 6#3 (byteOf 1 x) ^^^ entry t 5#3 (byteOf 2 x) ^^^ entry t 4#3 (byteOf 3 x)
    ^^^ entry t 3#3 (byteOf 4 x) ^^^ entry t 2#3 (byteOf 5 x) ^^^ entry t 1#3 (byteOf 6 x) ^^^ entry t 0#3 (byteOf 7 x)

/-- The fold (41_accumulator_ops.md R136). -/
def fold8 (t : Table) (acc w : DWord) : DWord := (foldLanes t (acc ^^^ w)).setWidth 64

/-- Enter the complemented domain: zext_64(SEED) ^ 0x00000000FFFFFFFF (41_accumulator_ops.md R132). -/
def enterDomain (seed : Word) : DWord := seed.setWidth 64 ^^^ 0x00000000FFFFFFFF#64

/-- Finish(acc): exit the complemented domain and truncate to 32 bits (41_accumulator_ops.md R139). -/
def finish (acc : DWord) : Word := (acc ^^^ 0x00000000FFFFFFFF#64).setWidth 32

/-- The checksum of a byte sequence (42_compute_dispatch.md R160), over the constant table GenTable(). -/
def crc32cSpec (seed : Word) (bs : List Byte) : Word :=
  if bs = [] then seed else finish (bs.foldl (byteStep genTable) (enterDomain seed))

end Sys2Proof.Machine
end

