-- ==== Sys2Proof/Machine/Operands.lean ====
section
/-! DEFINITION. The operands of the commands, each from its fixed host register (30_encoding.md R92), and the two halves of
the register pairs (20_memory.md R65). -/

namespace Sys2Proof.Machine

/-- Bits 31:0 of a register pair: the half at the lower offset (20_memory.md R65). -/
def lowHalf (x : DWord) : Word := x.extractLsb' 0 32

/-- Bits 63:32 of a register pair: the half 4 bytes above (20_memory.md R65). -/
def highHalf (x : DWord) : Word := x.extractLsb' 32 32

/-- A register pair with its low half replaced (43_host_access_and_control.md R202). -/
def setLowHalf (x : DWord) (v : Word) : DWord := highHalf x ++ v

/-- A register pair with its high half replaced (43_host_access_and_control.md R202). -/
def setHighHalf (x : DWord) (v : Word) : DWord := v ++ lowHalf x

/-- The operand of BYTE: DATA_LO[7:0]; the other bits of DATA are ignored (41_accumulator_ops.md R134). -/
def dataByte (s : State) : Byte := (lowHalf s.data).extractLsb' 0 8

/-- The operand of FOLD8: all 64 bits of DATA (41_accumulator_ops.md R137). -/
def dataWord (s : State) : DWord := s.data

/-- The operand of INIT and COMPUTE: SEED (41_accumulator_ops.md R132; 42_compute_dispatch.md R162, R171). -/
def seedOperand (s : State) : Word := s.seed

/-- The buffer extends past the top of the buffer space: ADDR + LEN > 2^64, computed exactly (20_memory.md R74). -/
def outOfRange (s : State) : Bool := decide (2 ^ 64 < s.addr.toNat + s.len.toNat)

/-- Address a lies in the buffer as latched, [ADDR, ADDR + LEN) (20_memory.md R60). -/
def inLatchedBuffer (s : State) (a : DWord) : Bool :=
  decide (s.bufAddr.toNat ≤ a.toNat) && decide (a.toNat < s.bufAddr.toNat + s.bufLen.toNat)

end Sys2Proof.Machine
end

