-- ==== Sys2Proof/Machine/Ops.lean ====
section
/-! DEFINITION. The shared operations: recording an error and clearing it (the block's exception entry and return,
60_exceptions.md R232, R233), accepting a long command, ending one, and the reset event. -/

namespace Sys2Proof.Machine

/-- RecordError(E, info) (60_exceptions.md R224), this block's exception entry: the first error is kept with its information,
a later one only sets ERROVF. The ghost FAULTED is set by every one. -/
def recordError (e : ErrCode) (info : DWord) (s : State) : State :=
  if s.errcode = .none then { s with errcode := e, errinfo := info, faulted := true }
  else { s with errovf := true, faulted := true }

/-- raise E(zext_64(word)) for codes 1 to 6: ERRINFO is the command word (60_exceptions.md R223). -/
def raiseForWord (e : ErrCode) (w : Word) (s : State) : State := recordError e (w.setWidth 64) s

/-- raise E in the issue rule of instruction i, whose word is the information (60_exceptions.md R221, R223). -/
def raiseFor (e : ErrCode) (i : Instr) (s : State) : State := raiseForWord e (encode i) s

/-- Clearing the error state, the return from an error (43_host_access_and_control.md R204; 60_exceptions.md R233). -/
def clearError (s : State) : State := { s with errcode := .none, errovf := false, errinfo := 0#64 }

/-- Accepting a long command: BUSY <- 1 and the first phase (30_encoding.md R97). -/
def beginLong (p : Phase) (s : State) : State := { s with busy := true, phase := p }

/-- Ending a long command: BUSY <- 0, PHASE <- IDLE (42_compute_dispatch.md R168, R169, R173). -/
def endLong (s : State) : State := { s with busy := false, phase := .idle }

/-- Latching the buffer of an accepted COMPUTE: CUR <- ADDR, REM <- LEN (42_compute_dispatch.md R162, R171), with the model's
own record of the range (20_memory.md R60). -/
def latchBuffer (s : State) : State :=
  { s with cur := s.addr, rem := s.len, bufAddr := s.addr, bufLen := s.len, dutyBroken := false }

/-- Writing RESULT at the end of a buffer computation: v, or a free value if the buffer was written while the command ran
(20_memory.md R77; log entry 4). -/
def deliverResult (v : Word) (s : State) : State :=
  if s.dutyBroken then { s with result := Config.freeResult s.draws, draws := s.draws + 1 } else { s with result := v }

/-- A refused read of the software path (42_compute_dispatch.md R169): BUS_ERROR with CUR, ACC_VALID <- 0, and the command
ends. ACC is left unspecified: a free value (log entry 6). -/
def abortSoftware (s : State) : State :=
  endLong { recordError .busError s.cur s with accValid := false, acc := Config.freeAcc s.draws, draws := s.draws + 1 }

/-- The address the hardware path reports: some refused address of [CUR, CUR + REM), drawn (42_compute_dispatch.md R174; log
entry 5). -/
def drawRefused (s : State) : DWord :=
  let refused := s.mem.refused s.cur s.rem.toNat
  refused.getD (Config.hwDraw s.draws % refused.length) s.cur

/-- A refused byte of the hardware path (42_compute_dispatch.md R173, R174): BUS_ERROR with a refused address, and the
command ends; RESULT, ACC and ACC_VALID stay. -/
def abortHardware (s : State) : State :=
  endLong { recordError .busError (drawRefused s) s with draws := s.draws + 1 }

/-- Another master writes a byte of buffer memory (43_host_access_and_control.md R205). In the latched range of a running
COMPUTE this breaks the host's duty (20_memory.md R77). -/
def writeBuffer (a : DWord) (b : Byte) (s : State) : State :=
  { s with
    mem := s.mem.write a b
    dutyBroken := s.dutyBroken || (s.busy && decide (s.phase ≠ .tblgen) && inLatchedBuffer s a) }

/-- The reset values taken (70_reset_and_hazards.md R260, R261): every piece of the block's state takes its value of 10_state.md R48,
HW_AVAIL the strap's. Buffer memory, the moves to come, the port's last answer and the ghosts of a whole run are not the
block's state and stay (60_exceptions.md R224; log entries 12, 16). -/
def applyReset (hwPresent : Bool) (s : State) : State :=
  { State.reset with
    hwAvail := hwPresent
    mem := s.mem
    inputs := s.inputs
    response := s.response
    faulted := s.faulted
    hostFaulted := s.hostFaulted
    draws := s.draws }

end Sys2Proof.Machine
end

