-- ==== Sys2Proof/Machine/Engine.lean ====
section
/-! DEFINITION. The ENGINE agent: its step in each phase (42_compute_dispatch.md R165-R169, R173; 40_table_generation.md
R115), and the choice among them (R176). -/

namespace Sys2Proof.Machine

/-- The HEAD and TAIL steps (42_compute_dispatch.md R165, R167): one byte read at CUR, reduced into ACC; norm gives the next
phase. A refused read aborts (R169). -/
def consumeByte (norm : DWord → Word → Phase) (s : State) : Result :=
  if s.rem.toNat = 0 then .fault .countExhausted
  else
    match s.mem.read s.cur with
    | none => .next (abortSoftware s)
    | some b =>
      .next { s with
        acc := byteStep s.table s.acc b
        cur := s.cur + 1#64
        rem := s.rem - 1#32
        phase := norm (s.cur + 1#64) (s.rem - 1#32) }

/-- HEAD step (42_compute_dispatch.md R165). -/
def headStep (s : State) : Result := consumeByte normHead s

/-- BULK step (42_compute_dispatch.md R166): one 8-byte little-endian read at CUR, folded into ACC. -/
def bulkStep (s : State) : Result :=
  if s.cur.toNat % 8 ≠ 0 then .fault .misalignedRead
  else if s.rem.toNat < 8 then .fault .countExhausted
  else
    match s.mem.read8 s.cur with
    | none => .next (abortSoftware s)
    | some w =>
      .next { s with
        acc := fold8 s.table s.acc w
        cur := s.cur + 8#64
        rem := s.rem - 8#32
        phase := normBulk (s.cur + 8#64) (s.rem - 8#32) }

/-- TAIL step (42_compute_dispatch.md R167). -/
def tailStep (s : State) : Result := consumeByte normTail s

/-- FINISH step (42_compute_dispatch.md R168): RESULT <- Finish(ACC), and the command ends. -/
def finishStep (s : State) : Result := .next (endLong (deliverResult (finish s.acc) s))

/-- TBLGEN step (40_table_generation.md R115): TABLE <- GenTable(), TBL_VALID <- 1, and the command ends. -/
def tblgenStep (s : State) : Result := .next (endLong { s with table := genTable, tblValid := true })

/-- HWRUN step (42_compute_dispatch.md R173): if every byte of [CUR, CUR + REM) is readable, RESULT <- Crc32cSpec(LSEED,
bytes) by the contract of R172, and the command ends; otherwise the hardware path's abort (R174). -/
def hwrunStep (s : State) : Result :=
  match s.mem.readRange s.cur s.rem.toNat with
  | some bs => .next (endLong (deliverResult (crc32cSpec s.lseed bs) s))
  | none => .next (abortHardware s)

/-- The engine's one enabled step while BUSY = 1, selected by PHASE (42_compute_dispatch.md R176). -/
def engineStep (s : State) : Result :=
  match s.phase with
  | .idle => .fault .noEnabledStep
  | .head => headStep s
  | .bulk => bulkStep s
  | .tail => tailStep s
  | .finish => finishStep s
  | .tblgen => tblgenStep s
  | .hwrun => hwrunStep s

/-- The engine's turn: its step while BUSY = 1, nothing while BUSY = 0 (42_compute_dispatch.md R176; 60_exceptions.md R240). -/
def engineTurn (s : State) : Result := if s.busy then engineStep s else .next s

end Sys2Proof.Machine
end

