-- ==== Sys2Proof/Machine/Accumulator.lean ====
section
/-! DEFINITION. The accumulator family (41_accumulator_ops.md): INIT, BYTE, FOLD8, FINAL, all short commands (R130). -/

namespace Sys2Proof.Machine

/-- The checks of BYTE and FOLD8, in order: TABLE_NOT_READY, then ACC_NOT_VALID (R134, R137); then ACC <- v. -/
def reduceInto (i : Instr) (v : DWord) (s : State) : State :=
  if s.tblValid = false then raiseFor .tableNotReady i s
  else if s.accValid = false then raiseFor .accNotValid i s
  else { s with acc := v }

/-- INIT (R132): ACC <- zext_64(SEED) ^ 0x00000000FFFFFFFF, ACC_VALID <- 1. -/
def execInit (s : State) : Result := .next { s with acc := enterDomain (seedOperand s), accValid := true }

/-- BYTE (R134): ACC <- ByteStep(ACC, DATA_LO[7:0]). -/
def execByte (s : State) : Result := .next (reduceInto .byte (byteStep s.table s.acc (dataByte s)) s)

/-- FOLD8 (R137): ACC <- Fold8(ACC, DATA). -/
def execFold8 (s : State) : Result := .next (reduceInto .fold8 (fold8 s.table s.acc (dataWord s)) s)

/-- FINAL (R141): RESULT <- Finish(ACC), or ACC_NOT_VALID. -/
def execFinal (s : State) : Result :=
  .next (if s.accValid = false then raiseFor .accNotValid .final s else { s with result := finish s.acc })

end Sys2Proof.Machine
end

