-- ==== Sys2Proof/Machine/Compute.lean ====
section
/-! DEFINITION. The compute family at its CMD write (42_compute_dispatch.md): COMPUTE.SW (R162, R163), COMPUTE.HW (R171). -/

namespace Sys2Proof.Machine

/-- COMPUTE.SW issue (R162): RANGE, then LEN = 0 (RESULT <- SEED and nothing else, R163), then TABLE_NOT_READY, then the
operands are latched and the first phase is Norm(HEAD, ADDR, LEN) (R164). -/
def issueSoftware (s : State) : State :=
  if outOfRange s then raiseFor .range .computeSw s
  else if s.len = 0#32 then { s with result := seedOperand s }
  else if s.tblValid = false then raiseFor .tableNotReady .computeSw s
  else
    beginLong (normHead s.addr s.len)
      { latchBuffer s with acc := enterDomain (seedOperand s), accValid := true }

/-- COMPUTE.HW issue (R171): HW_UNAVAILABLE (even when LEN = 0), then RANGE, then LEN = 0, then the operands are latched. The
table is not needed. -/
def issueHardware (s : State) : State :=
  if s.hwAvail = false then raiseFor .hwUnavailable .computeHw s
  else if outOfRange s then raiseFor .range .computeHw s
  else if s.len = 0#32 then { s with result := seedOperand s }
  else beginLong .hwrun { latchBuffer s with lseed := seedOperand s }

/-- COMPUTE.SW (R162). -/
def execComputeSw (s : State) : Result := .next (issueSoftware s)

/-- COMPUTE.HW (R171). -/
def execComputeHw (s : State) : Result := .next (issueHardware s)

end Sys2Proof.Machine
end

