-- ==== Sys2Proof/Machine/Control.lean ====
section
/-! DEFINITION. The control family (43_host_access_and_control.md): CLRERR. -/

namespace Sys2Proof.Machine

/-- CLRERR (R204): ERRCODE <- 0, ERROVF <- 0, ERRINFO <- 0. -/
def execClrerr (s : State) : Result := .next (clearError s)

end Sys2Proof.Machine
end

