-- ==== Sys2Proof/Machine/TableGeneration.lean ====
section
/-! DEFINITION. The table generation family (40_table_generation.md): TBLGEN at its CMD write. -/

namespace Sys2Proof.Machine

/-- TBLGEN (R114): BUSY <- 1, PHASE <- TBLGEN; the engine then takes the step of R115. No error of its own. -/
def execTblgen (s : State) : Result := .next (beginLong .tblgen s)

end Sys2Proof.Machine
end

