-- ==== Sys2Proof/Machine/Dispatch.lean ====
section
/-! DEFINITION. exec: the issue rule of each command word, performed by SubmitCommand (60_exceptions.md R225) once the word
is accepted. -/

namespace Sys2Proof.Machine

def exec (i : Instr) (s : State) : Host.Outcome State Fault Refusal :=
  match i with
  | .tblgen => Sys2Proof.Machine.execTblgen s
  | .clrerr => Sys2Proof.Machine.execClrerr s
  | .init => Sys2Proof.Machine.execInit s
  | .byte => Sys2Proof.Machine.execByte s
  | .fold8 => Sys2Proof.Machine.execFold8 s
  | .final => Sys2Proof.Machine.execFinal s
  | .computeSw => Sys2Proof.Machine.execComputeSw s
  | .computeHw => Sys2Proof.Machine.execComputeHw s

end Sys2Proof.Machine
end

