-- ==== Sys2Proof/Machine/Submit.lean ====
section
/-! DEFINITION. SubmitCommand (60_exceptions.md R225): what a host write of a word to CMD does. -/

namespace Sys2Proof.Machine

/-- The decoded half of R225: an illegal word raises ILLEGAL_CMD (30_encoding.md R95), a command has its issue rule. -/
def runWord (w : Word) (s : State) : Result :=
  match decode w with
  | .error _ => .next (raiseForWord .illegalCmd w s)
  | .ok i => exec i s

/-- SubmitCommand(w) (60_exceptions.md R225): while busy the word is discarded with CMD_WHILE_BUSY; while an error is recorded
every word but CLRERR's is discarded with ERROVF <- 1 (R226); otherwise the word is decoded and its issue rule performed. -/
def submitCommand (w : Word) (s : State) : Result :=
  if s.busy then .next (raiseForWord .cmdWhileBusy w s)
  else if s.errcode ≠ .none then
    if w = 0x00000002#32 then exec .clrerr s else .next { s with errovf := true }
  else runWord w s

end Sys2Proof.Machine
end

