-- ==== Sys2Proof/Machine/HostPort.lean ====
section
/-! DEFINITION. The host's accesses: RD (43_host_access_and_control.md R201), WR (R202), bus errors (R200), accesses while
the reset input is asserted (70_reset_and_hazards.md R260), and one poll of WAIT (30_encoding.md R99). -/

namespace Sys2Proof.Machine

/-- RD: the value a 32-bit aligned read of a register returns; none is a bus error (R201; 10_state.md R36). -/
def readRegister (s : State) : Reg → Option Word
  | .poly => some Config.poly
  | .status => some (statusWord s)
  | .cmd => some 0#32
  | .seed => some s.seed
  | .len => some s.len
  | .addrLo => some (lowHalf s.addr)
  | .addrHi => some (highHalf s.addr)
  | .dataLo => some (lowHalf s.data)
  | .dataHi => some (highHalf s.data)
  | .result => some s.result
  | .errinfoLo => some (lowHalf s.errinfo)
  | .errinfoHi => some (highHalf s.errinfo)
  | .reserved _ => some 0#32
  | .table j i => if s.tblValid then some (entry s.table j i) else none

/-- WR: a 32-bit aligned write of v to a register (R202). A write to CMD submits v as a command word; a write to a read-only
register, a reserved offset or the TABLE window has no effect. -/
def writeRegister (r : Reg) (v : Word) (s : State) : Result :=
  match r with
  | .cmd => submitCommand v s
  | .seed => .next { s with seed := v }
  | .len => .next { s with len := v }
  | .addrLo => .next { s with addr := setLowHalf s.addr v }
  | .addrHi => .next { s with addr := setHighHalf s.addr v }
  | .dataLo => .next { s with data := setLowHalf s.data v }
  | .dataHi => .next { s with data := setHighHalf s.data v }
  | .poly => .next s
  | .status => .next s
  | .result => .next s
  | .errinfoLo => .next s
  | .errinfoHi => .next s
  | .reserved _ => .next s
  | .table _ _ => .next s

/-- The port's answer is recorded for the host (R206). -/
def respond (r : Response) (s : State) : State := { s with response := some r }

/-- A bus error: an answer to the host that changes no state of the block and is not recorded in ERRCODE or ERRINFO (R200;
60_exceptions.md R229). The model's ghost hostFaulted marks the run (log entry 11). -/
def hostBusError (s : State) : State := { s with response := some .busError, hostFaulted := true }

/-- One host access (R200). An address outside the window is not the block's: the block does not answer. -/
def hostAccess (a : HostAccess) (s : State) : Result :=
  if a.inWindow = false then .next s
  else if a.legal = false then .next (hostBusError s)
  else
    match a.op with
    | .read =>
      match readRegister s (Reg.ofOffset a.off) with
      | some v => .next (respond (.value v) s)
      | none => .next (hostBusError s)
    | .write v => writeRegister (Reg.ofOffset a.off) v (respond .done s)

/-- An instant at which the reset input is asserted (70_reset_and_hazards.md R260): the block's state takes and keeps its reset
values, so an access that arrives is answered as a block at reset answers it and has no effect (log entry 16). -/
def resetMove (hwPresent : Bool) (access : Option HostAccess) (s : State) : State :=
  match access with
  | none => applyReset hwPresent s
  | some a =>
    match hostAccess a (applyReset hwPresent s) with
    | .next t => { applyReset hwPresent s with response := t.response, hostFaulted := t.hostFaulted }
    | .fault _ => applyReset hwPresent s
    | .refused _ => applyReset hwPresent s

/-- One poll of WAIT: RD STATUS; if BUSY reads 1 the engine has its turn and WAIT goes on (30_encoding.md R99; log entry 14). -/
def waitPoll (s : State) : State :=
  let t := respond (.value (statusWord s)) s
  if (statusWord s).getLsbD 0 then { t with inputs := .engine :: .wait :: s.inputs } else t

end Sys2Proof.Machine
end

