-- ==== Sys2Proof/Machine/Step.lean ====
section
/-! DEFINITION. One step of the machine: the next move of State.inputs, or the engine's turn when none is listed (log entry 1),
and how one command word is placed where the next step takes it (log entry 10). -/

namespace Sys2Proof.Machine

/-- The move an input makes, on the state whose list it was taken from. Each is one atomic step (60_exceptions.md R231). -/
def inputStep (i : Input) (s : State) : Host.Outcome State Fault Refusal :=
  match i with
  | .host a => hostAccess a s
  | .wait => .next (waitPoll s)
  | .engine => engineTurn s
  | .bufferWrite a b => .next (writeBuffer a b s)
  | .reset p a => .next (resetMove p a s)

/-- One step of one agent (00_scope.md R6; 42_compute_dispatch.md R176). -/
def step (s : State) : Host.Outcome State Fault Refusal :=
  match s.inputs with
  | [] => engineTurn s
  | i :: rest => inputStep i { s with inputs := rest }

/-- s with one host write of the command word w to CMD as its next move (20_memory.md R80: a command is the value of a CMD
write and is consumed by it). The bits above nbits are 0. -/
def State.withFetchWord (s : State) (nbits w : Nat) : State :=
  { s with inputs := .host (HostAccess.wr .cmd (BitVec.ofNat 32 (w % 2 ^ nbits))) :: s.inputs }

end Sys2Proof.Machine
end

