-- ==== Sys2Proof/Machine/Assembly.lean ====
section
/-! DEFINITION. The host assembly and its pseudo-instructions (30_encoding.md R98, R99) as lists of inputs. -/

namespace Sys2Proof.Machine

/-- One line of a host program (30_encoding.md R98, R99). -/
inductive Asm where
  | wr (r : Reg) (v : Word)
  | rd (r : Reg)
  | rdt (j : BitVec 3) (i : Byte)
  | cmd (i : Instr)
  | cmdW (w : Word)
  | wr64Addr (v : DWord)
  | wr64Data (v : DWord)
  | wait
  | crcsw (seed : Word) (addr : DWord) (len : Word)
  | crchw (seed : Word) (addr : DWord) (len : Word)
  | boot
deriving DecidableEq, Repr

/-- A 32-bit write as an input. -/
def inputWr (r : Reg) (v : Word) : Input := .host (HostAccess.wr r v)

/-- A 32-bit read as an input. -/
def inputRd (r : Reg) : Input := .host (HostAccess.rd r)

/-- A write of a command word to CMD as an input. -/
def inputCmd (i : Instr) : Input := inputWr .cmd (encode i)

/-- The expansion shared by CRCSW and CRCHW (30_encoding.md R99). -/
def expandCompute (i : Instr) (seed : Word) (addr : DWord) (len : Word) : List Input :=
  [inputWr .seed seed, inputWr .addrLo (addr.extractLsb' 0 32), inputWr .addrHi (addr.extractLsb' 32 32),
    inputWr .len len, inputCmd i, .wait, inputRd .result]

/-- The host-port operations a line stands for (30_encoding.md R98, R99); WAIT is the input of log entry 14. -/
def Asm.expand : Asm → List Input
  | .wr r v => [inputWr r v]
  | .rd r => [inputRd r]
  | .rdt j i => [inputRd (.table j i)]
  | .cmd i => [inputCmd i]
  | .cmdW w => [inputWr .cmd w]
  | .wr64Addr v => [inputWr .addrLo (v.extractLsb' 0 32), inputWr .addrHi (v.extractLsb' 32 32)]
  | .wr64Data v => [inputWr .dataLo (v.extractLsb' 0 32), inputWr .dataHi (v.extractLsb' 32 32)]
  | .wait => [.wait]
  | .crcsw seed addr len => expandCompute .computeSw seed addr len
  | .crchw seed addr len => expandCompute .computeHw seed addr len
  | .boot => [inputCmd .tblgen, .wait]

/-- A host program as a list of inputs, its lines in order (43_host_access_and_control.md R207). -/
def assemble (p : List Asm) : List Input := p.flatMap Asm.expand

end Sys2Proof.Machine
end

