-- ==== Sys2Proof/Safety.lean ====
section
/-! DEFINITION. What claims are stated in: the invariants of the block (10_state.md R46 and the model's own), safe runs, and
the moves of a state's queue. -/

namespace Sys2Proof.Machine

/-- The software path is running: PHASE is HEAD, BULK, TAIL or FINISH (10_state.md R46). -/
def Phase.software : Phase → Bool
  | .idle => false
  | .head => true
  | .bulk => true
  | .tail => true
  | .finish => true
  | .tblgen => false
  | .hwrun => false

/-- A phase in which the engine still has buffer bytes to read. -/
def Phase.reading : Phase → Bool
  | .idle => false
  | .head => true
  | .bulk => true
  | .tail => true
  | .finish => false
  | .tblgen => false
  | .hwrun => true

/-- The invariants of one state that 10_state.md R46 lists, in its order. -/
structure SequencerInv (s : State) : Prop where
  accHigh : s.accValid = true → highHalf s.acc = 0#32
  busyIff : s.busy = true ↔ s.phase ≠ .idle
  software : s.phase.software = true → s.tblValid = true ∧ s.accValid = true
  bulk : s.phase = .bulk → s.cur.toNat % 8 = 0 ∧ 8 ≤ s.rem.toNat
  tail : s.phase = .tail → 0 < s.rem.toNat ∧ s.rem.toNat < 8
  finish : s.phase = .finish → s.rem.toNat = 0

/-- The invariants of the block: R46's, and what the rules say of the table (10_state.md R40), the error state (R42,
60_exceptions.md R224, R227), the buffer being read (20_memory.md R60, R62; 42_compute_dispatch.md R164, R179) and memory's
canonical form. -/
structure Inv (s : State) : Prop where
  sequencer : SequencerInv s
  table : s.tblValid = true → s.table = genTable
  noError : s.errcode = .none → s.errinfo = 0#64 ∧ s.errovf = false
  ghost : s.errcode ≠ .none → s.faulted = true
  head : s.phase = .head → 0 < s.rem.toNat ∧ s.cur.toNat % 8 ≠ 0
  hwrun : s.phase = .hwrun → 0 < s.rem.toNat
  buffer : s.phase.reading = true →
    s.bufAddr.toNat ≤ s.cur.toNat ∧ s.cur.toNat + s.rem.toNat = s.bufAddr.toNat + s.bufLen.toNat ∧
      s.cur.toNat + s.rem.toNat ≤ 2 ^ 64
  memory : s.mem.wf = true

/-- A run up to s is safe for a claim that takes "no error was ever recorded" and "no host access was refused" as its premise
(60_exceptions.md R224, R229). -/
def State.clean (s : State) : Bool := !s.faulted && !s.hostFaulted

/-- The next move of s is the reset input. -/
def State.nextIsReset (s : State) : Bool :=
  match s.inputs with
  | .reset _ _ :: _ => true
  | _ => false

/-- The next move of s is another master's write of a byte of buffer memory. -/
def State.nextIsBufferWrite (s : State) : Bool :=
  match s.inputs with
  | .bufferWrite _ _ :: _ => true
  | _ => false

/-- The next move of s is the engine's turn: the queue is empty or lists it first (log entry 1). -/
def State.nextIsEngine (s : State) : Bool :=
  match s.inputs with
  | [] => true
  | .engine :: _ => true
  | _ => false

/-- s when its next move has been taken from the queue. -/
def State.popped (s : State) : State := { s with inputs := s.inputs.tail }

/-- The next move of s is a host write of the word w to CMD (10_state.md R33). -/
def State.nextIsCommand (s : State) (w : Word) : Bool :=
  match s.inputs with
  | .host a :: _ => decide (a = HostAccess.wr .cmd w)
  | _ => false

/-- The bytes memory answers at a, a + 1, … are bs, every one readable (20_memory.md R60, R61, R83). -/
def Memory.holds (m : Memory) (a : DWord) (bs : List Byte) : Prop :=
  ∀ k, k < bs.length → m.read (a + BitVec.ofNat 64 k) = bs[k]?

/-- k steps of the machine, stopping at the first fault or refusal. -/
def runSteps (k : Nat) (s : State) : Result := Host.Core.run Sys2Proof.core k s

/-- n steps from s lead to u, the first state of the run with BUSY = 0. -/
def endsIn (n : Nat) (s u : State) : Prop :=
  runSteps n s = .next u ∧ u.busy = false ∧ ∀ m < n, ∃ w, runSteps m s = .next w ∧ w.busy = true

/-- The host operation the next move of s carries, if it carries one: an access, or a poll of WAIT, which is RD STATUS
(30_encoding.md R98, R99). -/
def State.nextOperation (s : State) : Option HostAccess :=
  match s.inputs with
  | .host a :: _ => some a
  | .wait :: _ => some (HostAccess.rd .status)
  | .reset _ a :: _ => a
  | _ => none

/-- What the host observes of a step from s to t: the access it made and the answer it got (43_host_access_and_control.md
R206). An access outside the window is not the block's to answer (R200). -/
def observation (s t : State) : Option (HostAccess × Response) :=
  match s.nextOperation, t.response with
  | some a, some r => if a.inWindow then some (a, r) else none
  | _, _ => none

/-- What the host observes of n steps from s, in order (43_host_access_and_control.md R206). -/
def observations : Nat → State → List (HostAccess × Response)
  | 0, _ => []
  | n + 1, s =>
    match step s with
    | .next t => (observation s t).toList ++ observations n t
    | .fault _ => []
    | .refused _ => []

/-- The instruction, once accepted in s, is a long command: TBLGEN, or a COMPUTE with LEN ≠ 0 that passes its checks
(30_encoding.md R97; 00_scope.md R18; the checks of 42_compute_dispatch.md R162, R171). -/
def isLongCommand (s : State) : Instr → Bool
  | .tblgen => true
  | .clrerr => false
  | .init => false
  | .byte => false
  | .fold8 => false
  | .final => false
  | .computeSw => !outOfRange s && decide (s.len ≠ 0#32) && s.tblValid
  | .computeHw => s.hwAvail && !outOfRange s && decide (s.len ≠ 0#32)

/-- The next move of s submits a long command: it writes its word to CMD, the block accepts the word (60_exceptions.md R225) and
the command passes its checks (30_encoding.md R97). -/
def State.submitsLong (s : State) : Bool :=
  !s.busy && decide (s.errcode = .none) &&
    [Instr.tblgen, .computeSw, .computeHw].any fun i => s.nextIsCommand (encode i) && isLongCommand s i

/-- In the step from s to t a read of STATUS returned BUSY = 0. -/
def readsIdle (s t : State) : Bool :=
  match observation s t with
  | some (a, .value v) => decide (a = HostAccess.rd .status) && !v.getLsbD 0
  | _ => false

/-- After n steps from s the host still owes a read of STATUS that returns BUSY = 0: owed says whether it does at s; every long
command submitted makes it so, every such read ends it (43_host_access_and_control.md R207). -/
def owesPoll : Nat → Bool → State → Bool
  | 0, owed, _ => owed
  | n + 1, owed, s =>
    match step s with
    | .next t => owesPoll n (s.submitsLong || (owed && !readsIdle s t)) t
    | .fault _ => owed
    | .refused _ => owed

/-- No host operation is left in the queue. -/
def State.operationsDone (s : State) : Bool :=
  s.inputs.all fun i =>
    match i with
    | .host _ => false
    | .wait => false
    | .engine => true
    | .bufferWrite _ _ => true
    | .reset _ a => a.isNone

/-- The host program listed in s has ended after n steps, at u: its last operation has completed and, if it submitted a long
command, a later RD STATUS has returned BUSY = 0 (43_host_access_and_control.md R207). -/
def programEnds (n : Nat) (s u : State) : Prop :=
  runSteps n s = .next u ∧ u.operationsDone = true ∧ owesPoll n false s = false

/-- The moves that keep the host's duties while a command runs over the len bytes at addr: no reset, and no write into those
bytes (20_memory.md R77). Host accesses of any kind, and writes elsewhere, are allowed. -/
def Input.keepsDuty (addr : DWord) (len : Word) : Input → Prop
  | .host _ => True
  | .wait => True
  | .engine => True
  | .bufferWrite a _ => ¬(addr.toNat ≤ a.toNat ∧ a.toNat < addr.toNat + len.toNat)
  | .reset _ _ => False

/-- The number of HEAD steps of a COMPUTE.SW of n bytes at a (42_compute_dispatch.md R177). -/
def headSteps (a n : Nat) : Nat := min n ((8 - a % 8) % 8)

/-- The number of BULK steps of a COMPUTE.SW of n bytes at a (42_compute_dispatch.md R177). -/
def bulkSteps (a n : Nat) : Nat := (n - headSteps a n) / 8

/-- The number of TAIL steps of a COMPUTE.SW of n bytes at a (42_compute_dispatch.md R177). -/
def tailSteps (a n : Nat) : Nat := (n - headSteps a n) % 8

/-- The number of engine steps of a COMPUTE.SW of n bytes at a that meets no refused read, one FINISH step included
(42_compute_dispatch.md R177). -/
def softwareSteps (a n : Nat) : Nat := headSteps a n + bulkSteps a n + tailSteps a n + 1

/-- The phase the engine is in after k of those steps (42_compute_dispatch.md R177). -/
def phaseAt (a n k : Nat) : Phase :=
  if k < headSteps a n then .head
  else if k < headSteps a n + bulkSteps a n then .bulk
  else if k < headSteps a n + bulkSteps a n + tailSteps a n then .tail
  else if k < softwareSteps a n then .finish
  else .idle

/-- One command of a stream fed through the accumulator commands (41_accumulator_ops.md R142). -/
inductive StreamOp where
  /-- BYTE with DATA_LO = d. -/
  | byte (d : Word)
  /-- FOLD8 with DATA = d. -/
  | word (d : DWord)
deriving DecidableEq, Repr

/-- The stream bytes a command feeds, in order: BYTE takes DATA_LO[7:0], FOLD8 byte_0 to byte_7 of DATA. -/
def StreamOp.bytes : StreamOp → List Byte
  | .byte d => [d.extractLsb' 0 8]
  | .word d => (List.range 8).map fun k => byteOf k d

/-- The host accesses that feed it. -/
def StreamOp.accesses : StreamOp → List Input
  | .byte d => [inputWr .dataLo d, inputCmd .byte]
  | .word d => [inputWr .dataLo (lowHalf d), inputWr .dataHi (highHalf d), inputCmd .fold8]

/-- The host accesses of a whole stream: SEED, INIT, the stream's commands, FINAL. -/
def streamAccesses (seed : Word) (ops : List StreamOp) : List Input :=
  [inputWr .seed seed, inputCmd .init] ++ ops.flatMap StreamOp.accesses ++ [inputCmd .final]

end Sys2Proof.Machine
end

