-- ==== Sys2Proof/Certificates/Slice0/Obligations.lean ====
section
/-! DEFINITION. The statements about the model, each from numbered rules of spec/ (named in its docstring and in
OBLIGATIONS.json). -/

open Sys2Proof Sys2Proof.Machine

/-! ## Encoding -/

/-- R94: decoding is by exact match of all 32 bits against the table of R93, after the acceptance checks, and total. -/
def Obligations.DecodeIsExactMatchAfterAcceptance : Prop :=
  (∀ (w : Word) (i : Instr), decode w = .ok i ↔
    (w, i) ∈ [(0x00000001#32, Instr.tblgen), (0x00000002#32, .clrerr), (0x00000010#32, .init), (0x00000011#32, .byte),
      (0x00000012#32, .fold8), (0x00000013#32, .final), (0x00000020#32, .computeSw), (0x00000120#32, .computeHw)]) ∧
  (∀ w : Word, (∀ i, decode w ≠ .ok i) → decode w = .error .illegal) ∧
  ∀ (w : Word) (s : State),
    (s.busy = true → submitCommand w s = .next (recordError .cmdWhileBusy (w.setWidth 64) s)) ∧
    (s.busy = false → s.errcode ≠ .none → w ≠ 0x00000002#32 → submitCommand w s = .next { s with errovf := true })

/-- R95: which words are illegal, by their fields, and what an accepted illegal word does. -/
def Obligations.IllegalWordsRaiseIllegalCmd : Prop :=
  (∀ w : Word, decode w = .error .illegal ↔
    (w.extractLsb' 0 8 ∉ [0x01#8, 0x02#8, 0x10#8, 0x11#8, 0x12#8, 0x13#8, 0x20#8] ∨ w.extractLsb' 9 23 ≠ 0#23 ∨
      (w.getLsbD 8 = true ∧ w.extractLsb' 0 8 ≠ 0x20#8))) ∧
  decode 0x00000000#32 = .error .illegal ∧
  ∀ (w : Word) (s : State), s.nextIsCommand w = true → s.busy = false → s.errcode = .none → decode w = .error .illegal →
    step s = .next { s.popped with
      response := some .done, errcode := .illegalCmd, errinfo := w.setWidth 64, faulted := true }

/-- R90, R93: decode and encode agree on every instruction and every word, and no bit of a word is dropped. -/
def Obligations.DecodeAndEncodeAgree : Prop :=
  (∀ i : Instr, i.wellFormed = true →
    decode (encode i) = .ok i ∧ Cmd32.ofWord (encode i) = i.fields ∧ i.fields.wellFormed = true ∧
      decodeTableWord 32 (encode i).toNat = some i) ∧
  (∀ (w : Word) (i : Instr), decode w = .ok i → encode i = w) ∧
  (∀ c : Cmd32, Cmd32.ofWord c.toWord = c) ∧ (∀ w : Word, (Cmd32.ofWord w).toWord = w) ∧
  ∀ w : Word, (∃ i, decode w = .ok i) ↔ (Cmd32.ofWord w).wellFormed = true

/-- R93: the eight words of the table, written out. -/
def Obligations.TableWordsDecode : Prop :=
  decode 0b00000000000000000000000000000001#32 = .ok .tblgen ∧
  decode 0b00000000000000000000000000000010#32 = .ok .clrerr ∧
  decode 0b00000000000000000000000000010000#32 = .ok .init ∧
  decode 0b00000000000000000000000000010001#32 = .ok .byte ∧
  decode 0b00000000000000000000000000010010#32 = .ok .fold8 ∧
  decode 0b00000000000000000000000000010011#32 = .ok .final ∧
  decode 0b00000000000000000000000000100000#32 = .ok .computeSw ∧
  decode 0b00000000000000000000000100100000#32 = .ok .computeHw

/-! ## The step -/

/-- R225, R80: a step whose next move is a write of a legal word to CMD is exec of the decoded command, once the block is idle
and has no error recorded; the port's answer is the model's own. withFetchWord places such a move. -/
def Obligations.StepRunsDecodedCommand : Prop :=
  ∀ (s : State) (w : Word) (i : Instr), s.busy = false → s.errcode = .none → decode w = .ok i →
    (s.nextIsCommand w = true → step s = exec i (respond .done s.popped)) ∧
    step (s.withFetchWord 32 w.toNat) = exec i (respond .done s)

/-- R225: the handling of every host write of a word to CMD. -/
def Obligations.SubmitCommandHandlesEveryWord : Prop :=
  ∀ (s : State) (w : Word), s.nextIsCommand w = true →
    (s.busy = true →
      step s = .next (recordError .cmdWhileBusy (w.setWidth 64) (respond .done s.popped))) ∧
    (s.busy = false → s.errcode ≠ .none → w = 0x00000002#32 →
      step s = exec .clrerr (respond .done s.popped)) ∧
    (s.busy = false → s.errcode ≠ .none → w ≠ 0x00000002#32 →
      step s = .next { s.popped with response := some .done, errovf := true }) ∧
    (s.busy = false → s.errcode = .none → decode w = .error .illegal →
      step s = .next (recordError .illegalCmd (w.setWidth 64) (respond .done s.popped))) ∧
    ∀ i, s.busy = false → s.errcode = .none → decode w = .ok i →
      step s = exec i (respond .done s.popped)

/-! ## Table generation -/

/-- R111, R112: row 0 is eight iterations of the bit-at-a-time reduction; row j comes from row j - 1 through row 0. -/
def Obligations.GeneratedTableFollowsTheAlgorithm : Prop :=
  (∀ i : Byte, entry genTable 0#3 i =
    (fun c : Word => if c.getLsbD 0 then (c >>> 1) ^^^ 0x82F63B78#32 else c >>> 1)^[8] (i.setWidth 32)) ∧
  ∀ (j : BitVec 3) (i : Byte), j ≠ 0#3 →
    entry genTable j i =
      entry genTable 0#3 ((entry genTable (j - 1#3) i).setWidth 8) ^^^ (entry genTable (j - 1#3) i >>> 8)

/-- R117: the properties of the generated table. -/
def Obligations.GeneratedTableProperties : Prop :=
  (∀ j : BitVec 3, entry genTable j 0#8 = 0#32) ∧ entry genTable 0#3 0x80#8 = 0x82F63B78#32 ∧
  (∀ (j : BitVec 3) (a b : Byte), entry genTable j (a ^^^ b) = entry genTable j a ^^^ entry genTable j b) ∧
  (∀ (j : BitVec 3) (i : Byte), (entry genTable j i).setWidth 64 =
    (fun c : DWord => byteStep genTable c 0#8)^[j.toNat] ((entry genTable 0#3 i).setWidth 64)) ∧
  ∀ (j : BitVec 3) (i : Byte), (entry genTable j i).toNat < 2 ^ 32

/-- R118: the worked entries, and row 0 step by step for i = 0x01. -/
def Obligations.WorkedTableEntries : Prop :=
  ([0x00#8, 0x01#8, 0x02#8, 0x80#8, 0xFF#8].map (entry genTable 0#3) =
    [0x00000000#32, 0xF26B8303#32, 0xE13B70F7#32, 0x82F63B78#32, 0xAD7D5351#32]) ∧
  ([0x00#8, 0x01#8, 0x02#8, 0x80#8, 0xFF#8].map (entry genTable 1#3) =
    [0x00000000#32, 0x13A29877#32, 0x274530EE#32, 0xFBC3FAF9#32, 0xA3E32483#32]) ∧
  ([0x00#8, 0x01#8, 0x02#8, 0x80#8, 0xFF#8].map (entry genTable 7#3) =
    [0x00000000#32, 0x493C7D27#32, 0x9278FA4E#32, 0x34019664#32, 0x1F1530A5#32]) ∧
  (List.range 9).map (fun k => crcShifts k 0x00000001#32) =
    [0x00000001#32, 0x82F63B78#32, 0x417B1DBC#32, 0x20BD8EDE#32, 0x105EC76F#32, 0x8AD958CF#32, 0xC79A971F#32,
      0xE13B70F7#32, 0xF26B8303#32]

/-- R114, R115: TBLGEN at its CMD write and its one engine step, the acceptance errors, the corner case, and the example of
R114 from reset. -/
def Obligations.TblgenBuildsTheTable : Prop :=
  encode .tblgen = 0x00000001#32 ∧
  (∀ s : State, exec .tblgen s = .next { s with busy := true, phase := .tblgen }) ∧
  (∀ s : State, s.busy = true → submitCommand 0x00000001#32 s = .next (recordError .cmdWhileBusy 0x1#64 s)) ∧
  (∀ s : State, s.busy = false → s.errcode ≠ .none → submitCommand 0x00000001#32 s = .next { s with errovf := true }) ∧
  (∀ s : State, Inv s → s.nextIsEngine = true → s.busy = true → s.phase = .tblgen → s.tblValid = true →
    step s = .next { s.popped with busy := false, phase := .idle }) ∧
  (∀ s : State, s.nextIsEngine = true → s.busy = true → s.phase = .tblgen →
    step s = .next { s.popped with table := genTable, tblValid := true, busy := false, phase := .idle }) ∧
  ∃ t u v : State, step (State.reset.withFetchWord 32 0x00000001) = .next t ∧
    t.busy = true ∧ t.tblValid = false ∧ (statusWord t).extractLsb' 16 3 = 5#3 ∧ (statusWord t).getLsbD 0 = true ∧
    step t = .next u ∧ u.tblValid = true ∧ u.busy = false ∧
    hostAccess (HostAccess.rd (.table 0#3 0x01#8)) u = .next v ∧ v.response = some (.value 0xF26B8303#32)

/-- R116: after the first TBLGEN step the table is constant, and TBL_VALID stays 1, until reset. -/
def Obligations.TableIsConstantOnceValid : Prop :=
  ∀ s t : State, Inv s → s.tblValid = true → s.nextIsReset = false → step s = .next t →
    t.tblValid = true ∧ ∀ (j : BitVec 3) (i : Byte), entry t.table j i = entry s.table j i

/-! ## Accumulator commands -/

/-- R132: INIT, with its corner case and examples. -/
def Obligations.InitEntersComplementedDomain : Prop :=
  encode .init = 0x00000010#32 ∧
  (∀ s : State, exec .init s =
    .next { s with acc := s.seed.setWidth 64 ^^^ 0x00000000FFFFFFFF#64, accValid := true }) ∧
  (∀ s : State, s.seed = 0xFFFFFFFF#32 → exec .init s = .next { s with acc := 0#64, accValid := true }) ∧
  (∀ s : State, s.seed = 0x00000000#32 → exec .init s = .next { s with acc := 0x00000000FFFFFFFF#64, accValid := true }) ∧
  ∀ s : State, s.seed = 0x12345678#32 → exec .init s = .next { s with acc := 0x00000000EDCBA987#64, accValid := true }

/-- R134: BYTE, its errors in order, its effect, its corner cases and its example. -/
def Obligations.ByteReducesOneByte : Prop :=
  encode .byte = 0x00000011#32 ∧
  ∀ s : State,
    (s.tblValid = false → exec .byte s = .next (recordError .tableNotReady 0x11#64 s)) ∧
    (s.tblValid = true → s.accValid = false → exec .byte s = .next (recordError .accNotValid 0x11#64 s)) ∧
    (s.tblValid = true → s.accValid = true →
      exec .byte s = .next { s with
        acc := (entry s.table 0#3 (s.acc.extractLsb' 0 8 ^^^ s.data.extractLsb' 0 8)).setWidth 64 ^^^ (s.acc >>> 8) }) ∧
    (Inv s → s.tblValid = true → s.accValid = true → s.data.extractLsb' 0 8 = 0x00#8 → s.acc = 0#64 →
      exec .byte s = .next s) ∧
    (Inv s → s.tblValid = true → s.accValid = true → s.data.extractLsb' 0 8 = 0xFF#8 → s.acc = 0xFFFFFFFF#64 →
      exec .byte s = .next { s with acc := 0x00FFFFFF#64 }) ∧
    (Inv s → s.tblValid = true → s.accValid = true → s.data.extractLsb' 0 8 = 0x31#8 → s.acc = 0xFFFFFFFF#64 →
      exec .byte s = .next { s with acc := 0x6F0A661C#64 })

/-- R137: FOLD8, its errors in order, its effect lane by lane, its corner cases and its example. -/
def Obligations.Fold8ReducesEightBytes : Prop :=
  encode .fold8 = 0x00000012#32 ∧
  ∀ s : State,
    (s.tblValid = false → exec .fold8 s = .next (recordError .tableNotReady 0x12#64 s)) ∧
    (s.tblValid = true → s.accValid = false → exec .fold8 s = .next (recordError .accNotValid 0x12#64 s)) ∧
    (∀ x : DWord, s.tblValid = true → s.accValid = true → x = s.acc ^^^ s.data →
      exec .fold8 s = .next { s with
        acc := (entry s.table 7#3 (x.extractLsb' 0 8) ^^^ entry s.table 6#3 (x.extractLsb' 8 8) ^^^
          entry s.table 5#3 (x.extractLsb' 16 8) ^^^ entry s.table 4#3 (x.extractLsb' 24 8) ^^^
          entry s.table 3#3 (x.extractLsb' 32 8) ^^^ entry s.table 2#3 (x.extractLsb' 40 8) ^^^
          entry s.table 1#3 (x.extractLsb' 48 8) ^^^ entry s.table 0#3 (x.extractLsb' 56 8)).setWidth 64 }) ∧
    (Inv s → s.tblValid = true → s.accValid = true →
      (s.data = (s.acc.extractLsb' 0 32).setWidth 64 → exec .fold8 s = .next { s with acc := 0#64 }) ∧
      (s.acc = 0#64 → s.data = 0#64 → exec .fold8 s = .next { s with acc := 0#64 }) ∧
      (s.acc = 0#64 → s.data = 1#64 → exec .fold8 s = .next { s with acc := 0x493C7D27#64 }) ∧
      (s.acc = 0#64 → s.data = 1#64 <<< 56 → exec .fold8 s = .next { s with acc := 0xF26B8303#64 }) ∧
      (s.acc = 0xFFFFFFFF#64 → s.data = 0x3837363534333231#64 → exec .fold8 s = .next { s with acc := 0x9F787F65#64 }))

/-- R141: FINAL, its error, its effect, INIT then FINAL, FINAL repeated, and its example. -/
def Obligations.FinalExitsComplementedDomain : Prop :=
  encode .final = 0x00000013#32 ∧
  ∀ s : State,
    (s.accValid = false → exec .final s = .next (recordError .accNotValid 0x13#64 s)) ∧
    (s.accValid = true → exec .final s = .next { s with result := (s.acc ^^^ 0x00000000FFFFFFFF#64).setWidth 32 }) ∧
    (∃ t, exec .init s = .next t ∧ exec .final t = .next { t with result := s.seed }) ∧
    (∀ t, s.accValid = true → exec .final s = .next t → exec .final t = .next t) ∧
    (s.accValid = true → s.acc = 0x1CF96D7C#64 → exec .final s = .next { s with result := 0xE3069283#32 })

/-- R133, R111: over the generated table the byte step is the bit-at-a-time reduction of eight bits. -/
def Obligations.ByteStepIsBitwiseReduction : Prop :=
  ∀ (acc : DWord) (b : Byte), highHalf acc = 0#32 →
    byteStep genTable acc b =
      ((fun c : Word => if c.getLsbD 0 then (c >>> 1) ^^^ 0x82F63B78#32 else c >>> 1)^[8]
        (lowHalf acc ^^^ b.setWidth 32)).setWidth 64

/-- R138: one fold equals eight byte steps over the word's bytes in ascending order. -/
def Obligations.FoldEqualsEightByteSteps : Prop :=
  ∀ (acc w : DWord), acc.toNat < 2 ^ 32 →
    fold8 genTable acc w = (List.range 8).foldl (fun a k => byteStep genTable a (byteOf k w)) acc

/-- R142: a stream fed by any mix of BYTE and FOLD8 between INIT and FINAL gives the reference checksum of its bytes. -/
def Obligations.StreamMatchesReference : Prop :=
  ∀ (s : State) (seed : Word) (ops : List StreamOp) (rest : List Input),
    Inv s → s.tblValid = true → s.busy = false → s.errcode = .none → s.inputs = streamAccesses seed ops ++ rest →
    ∃ t, runSteps (streamAccesses seed ops).length s = .next t ∧ t.inputs = rest ∧ t.errcode = .none ∧ t.busy = false ∧
      t.result = crc32cSpec seed (ops.flatMap StreamOp.bytes)

/-! ## COMPUTE at its CMD write -/

/-- R162: COMPUTE.SW issue, each check in order, and what the accepted command latches. bufAddr, bufLen and dutyBroken are
the model's own record of the latched range (log entry 4). -/
def Obligations.SoftwareIssueFollowsItsChecks : Prop :=
  ∀ s : State,
    (2 ^ 64 < s.addr.toNat + s.len.toNat → exec .computeSw s = .next (recordError .range 0x20#64 s)) ∧
    (s.addr.toNat + s.len.toNat ≤ 2 ^ 64 → s.len = 0#32 → exec .computeSw s = .next { s with result := s.seed }) ∧
    (s.addr.toNat + s.len.toNat ≤ 2 ^ 64 → s.len ≠ 0#32 → s.tblValid = false →
      exec .computeSw s = .next (recordError .tableNotReady 0x20#64 s)) ∧
    (s.addr.toNat + s.len.toNat ≤ 2 ^ 64 → s.len ≠ 0#32 → s.tblValid = true →
      exec .computeSw s = .next { s with
        cur := s.addr, rem := s.len, acc := s.seed.setWidth 64 ^^^ 0x00000000FFFFFFFF#64, accValid := true, busy := true
        phase := if s.addr.toNat % 8 ≠ 0 then .head else if 8 ≤ s.len.toNat then .bulk else .tail
        bufAddr := s.addr, bufLen := s.len, dutyBroken := false })

/-- R171: COMPUTE.HW issue, each check in order, and what the accepted command latches. -/
def Obligations.HardwareIssueFollowsItsChecks : Prop :=
  ∀ s : State,
    (s.hwAvail = false → exec .computeHw s = .next (recordError .hwUnavailable 0x120#64 s)) ∧
    (s.hwAvail = true → 2 ^ 64 < s.addr.toNat + s.len.toNat → exec .computeHw s = .next (recordError .range 0x120#64 s)) ∧
    (s.hwAvail = true → s.addr.toNat + s.len.toNat ≤ 2 ^ 64 → s.len = 0#32 →
      exec .computeHw s = .next { s with result := s.seed }) ∧
    (s.hwAvail = true → s.addr.toNat + s.len.toNat ≤ 2 ^ 64 → s.len ≠ 0#32 →
      exec .computeHw s = .next { s with
        cur := s.addr, rem := s.len, lseed := s.seed, busy := true, phase := .hwrun
        bufAddr := s.addr, bufLen := s.len, dutyBroken := false })

/-- R163, R182: an empty buffer returns the seed and changes nothing else, whatever memory, the table and the address hold. -/
def Obligations.EmptyBufferReturnsTheSeed : Prop :=
  (∀ seed : Word, crc32cSpec seed [] = seed) ∧
  ∀ s : State, s.len = 0#32 →
    exec .computeSw s = .next { s with result := s.seed } ∧
    (s.hwAvail = true → exec .computeHw s = .next { s with result := s.seed })

/-- R164: the phase the engine goes to, by the bytes that remain and the alignment of the cursor. -/
def Obligations.PhaseNormalisation : Prop :=
  ∀ (cur : DWord) (rem : Word),
    (rem = 0#32 → normHead cur rem = .finish ∧ normBulk cur rem = .finish ∧ normTail cur rem = .finish) ∧
    (rem ≠ 0#32 → cur.toNat % 8 ≠ 0 → normHead cur rem = .head) ∧
    (rem ≠ 0#32 → cur.toNat % 8 = 0 → normHead cur rem = normBulk cur rem) ∧
    (8 ≤ rem.toNat → normBulk cur rem = .bulk) ∧
    (rem.toNat < 8 → normBulk cur rem = normTail cur rem) ∧
    (0 < rem.toNat → normTail cur rem = .tail)

/-! ## The engine -/

/-- R165, R167: the HEAD and TAIL steps consume one readable byte; no natural number goes below 0. -/
def Obligations.HeadAndTailConsumeOneByte : Prop :=
  ∀ (s : State) (b : Byte), Inv s → s.nextIsEngine = true → s.busy = true → s.mem.read s.cur = some b →
    (s.phase = .head →
      step s = .next { s.popped with
        acc := byteStep s.table s.acc b, cur := s.cur + 1#64, rem := s.rem - 1#32
        phase := normHead (s.cur + 1#64) (s.rem - 1#32) } ∧ (s.rem - 1#32).toNat + 1 = s.rem.toNat) ∧
    (s.phase = .tail →
      step s = .next { s.popped with
        acc := byteStep s.table s.acc b, cur := s.cur + 1#64, rem := s.rem - 1#32
        phase := normTail (s.cur + 1#64) (s.rem - 1#32) } ∧ (s.rem - 1#32).toNat + 1 = s.rem.toNat)

/-- R166: the BULK step folds the eight readable bytes at the cursor, the byte at the lowest address the least significant. -/
def Obligations.BulkFoldsEightBytes : Prop :=
  ∀ (s : State) (b0 b1 b2 b3 b4 b5 b6 b7 : Byte), Inv s → s.nextIsEngine = true → s.busy = true → s.phase = .bulk →
    s.mem.holds s.cur [b0, b1, b2, b3, b4, b5, b6, b7] →
    step s = .next { s.popped with
      acc := fold8 s.table s.acc (b7 ++ b6 ++ b5 ++ b4 ++ b3 ++ b2 ++ b1 ++ b0), cur := s.cur + 8#64, rem := s.rem - 8#32
      phase := normBulk (s.cur + 8#64) (s.rem - 8#32) } ∧ (s.rem - 8#32).toNat + 8 = s.rem.toNat

/-- R63, R83: an 8-byte read is little-endian, and it is admitted iff every byte of it is. -/
def Obligations.WideReadIsLittleEndian : Prop :=
  (∀ (m : Memory) (a : DWord) (b0 b1 b2 b3 b4 b5 b6 b7 : Byte), m.holds a [b0, b1, b2, b3, b4, b5, b6, b7] →
    m.read8 a = some (b7 ++ b6 ++ b5 ++ b4 ++ b3 ++ b2 ++ b1 ++ b0)) ∧
  (∀ (m : Memory) (a w : DWord), m.read8 a = some w → ∀ k, k < 8 → m.read (a + BitVec.ofNat 64 k) = some (byteOf k w)) ∧
  ∀ (m : Memory) (a : DWord), (m.read8 a).isSome = true ↔ ∀ k, k < 8 → m.readable (a + BitVec.ofNat 64 k) = true

/-- R169: a refused read aborts the software path; nothing else changes. ACC is any value (log entry 6). -/
def Obligations.RefusedReadAbortsSoftwarePath : Prop :=
  ∀ s : State, Inv s → s.nextIsEngine = true → s.busy = true →
    ((s.phase = .head ∨ s.phase = .tail) ∧ s.mem.readable s.cur = false) ∨
      (s.phase = .bulk ∧ ∃ k, k < 8 ∧ s.mem.readable (s.cur + BitVec.ofNat 64 k) = false) →
    ∃ t, step s = .next t ∧
      (s.errcode = .none → t = { s.popped with
        errcode := .busError, errinfo := s.cur, faulted := true
        accValid := false, busy := false, phase := .idle, acc := t.acc, draws := t.draws }) ∧
      (s.errcode ≠ .none → t = { s.popped with
        errovf := true, faulted := true
        accValid := false, busy := false, phase := .idle, acc := t.acc, draws := t.draws })

/-- R168: the FINISH step writes RESULT and ends the command; ACC and ACC_VALID stay. -/
def Obligations.FinishDeliversTheResult : Prop :=
  ∀ s : State, s.nextIsEngine = true → s.busy = true → s.phase = .finish → s.dutyBroken = false →
    step s = .next { s.popped with
      result := (s.acc ^^^ 0x00000000FFFFFFFF#64).setWidth 32, busy := false, phase := .idle }

/-- R173, R174: the HWRUN step meets its contract over readable bytes, and otherwise records BUS_ERROR with some refused
address of the buffer; which one is not said. -/
def Obligations.HardwareStepMeetsItsContract : Prop :=
  ∀ s : State, s.nextIsEngine = true → s.busy = true → s.phase = .hwrun →
    (∀ bs : List Byte, bs.length = s.rem.toNat → s.mem.holds s.cur bs → s.dutyBroken = false →
      step s = .next { s.popped with result := crc32cSpec s.lseed bs, busy := false, phase := .idle }) ∧
    ((∃ k, k < s.rem.toNat ∧ s.mem.readable (s.cur + BitVec.ofNat 64 k) = false) →
      ∃ (t : State) (k : Nat), k < s.rem.toNat ∧ s.mem.readable (s.cur + BitVec.ofNat 64 k) = false ∧ step s = .next t ∧
        (s.errcode = .none → t = { s.popped with
          errcode := .busError, errinfo := s.cur + BitVec.ofNat 64 k, faulted := true
          busy := false, phase := .idle, draws := t.draws }) ∧
        (s.errcode ≠ .none → t = { s.popped with
          errovf := true, faulted := true, busy := false, phase := .idle, draws := t.draws }))

/-- R175: the running command does not depend on the operand registers, and writes to them while it runs are accepted. -/
def Obligations.OperandsAreLatchedAtIssue : Prop :=
  (∀ (s t : State) (seed len : Word) (addr : DWord), s.busy = true → engineTurn s = .next t →
    engineTurn { s with seed := seed, len := len, addr := addr } =
      .next { t with seed := seed, len := len, addr := addr }) ∧
  ∀ (s : State) (v : Word) (rest : List Input), s.busy = true →
    (s.inputs = inputWr .seed v :: rest → step s = .next { s.popped with response := some .done, seed := v }) ∧
    (s.inputs = inputWr .len v :: rest → step s = .next { s.popped with response := some .done, len := v }) ∧
    (s.inputs = inputWr .addrLo v :: rest →
      step s = .next { s.popped with response := some .done, addr := s.addr.extractLsb' 32 32 ++ v }) ∧
    (s.inputs = inputWr .addrHi v :: rest →
      step s = .next { s.popped with response := some .done, addr := v ++ s.addr.extractLsb' 0 32 })

/-- R178: an error recorded by a host action while a command runs changes only the error state, and the running command's
steps do not depend on the error state; a refused read with an error already recorded sets only ERROVF. -/
def Obligations.RunningCommandIgnoresTheErrorState : Prop :=
  (∀ (s : State) (w : Word), s.busy = true → s.nextIsCommand w = true →
    ∃ t, step s = .next t ∧ t = { s.popped with
      response := some .done, errcode := t.errcode, errovf := t.errovf, errinfo := t.errinfo, faulted := true }) ∧
  (∀ (s t : State) (c : ErrCode) (v : Bool) (i : DWord) (f : Bool), s.busy = true → engineTurn s = .next t →
    ∃ u, engineTurn { s with errcode := c, errovf := v, errinfo := i, faulted := f } = .next u ∧
      u = { t with errcode := u.errcode, errovf := u.errovf, errinfo := u.errinfo, faulted := u.faulted } ∧
      (s.errcode = .none → t.errcode = .busError → c ≠ .none → u.errcode = c ∧ u.errinfo = i ∧ u.errovf = true)) ∧
  ∀ s t : State, s.busy = true → s.errcode ≠ .none → engineTurn s = .next t →
    t.errcode = s.errcode ∧ t.errinfo = s.errinfo

/-- R185, R180: a COMPUTE.SW over readable bytes completes after R177's number of steps when nothing else moves, and however
the host's moves fall between the engine's steps, when it has completed RESULT is the reference checksum of the buffer as it
stood at issue and ACC is its complement. Left alone it leaves the error state as it was. -/
def Obligations.SoftwareComputeMatchesReference : Prop :=
  ∀ (s : State) (bs : List Byte), Inv s → s.busy = false → s.tblValid = true →
    s.addr.toNat + s.len.toNat ≤ 2 ^ 64 → s.len ≠ 0#32 → bs.length = s.len.toNat → s.mem.holds s.addr bs →
    ∃ t, exec .computeSw s = .next t ∧
      (∃ u, endsIn (softwareSteps s.addr.toNat s.len.toNat) { t with inputs := [] } u ∧ u.phase = .idle ∧
        u.errcode = s.errcode ∧ u.errovf = s.errovf ∧ u.errinfo = s.errinfo) ∧
      ∀ (moves : List Input) (n : Nat) (u : State), (∀ i ∈ moves, i.keepsDuty s.addr s.len) →
        endsIn n { t with inputs := moves } u →
        u.result = crc32cSpec s.seed bs ∧ u.accValid = true ∧ u.acc = (~~~u.result).setWidth 64

/-- R172, R180: the same of COMPUTE.HW, which takes one step; ACC, ACC_VALID, TABLE and TBL_VALID are as they were at issue. -/
def Obligations.HardwareComputeMatchesReference : Prop :=
  ∀ (s : State) (bs : List Byte), Inv s → s.busy = false → s.hwAvail = true →
    s.addr.toNat + s.len.toNat ≤ 2 ^ 64 → s.len ≠ 0#32 → bs.length = s.len.toNat → s.mem.holds s.addr bs →
    ∃ t, exec .computeHw s = .next t ∧
      (∃ u, endsIn 1 { t with inputs := [] } u ∧ u.phase = .idle ∧
        u.errcode = s.errcode ∧ u.errovf = s.errovf ∧ u.errinfo = s.errinfo) ∧
      ∀ (moves : List Input) (n : Nat) (u : State), (∀ i ∈ moves, i.keepsDuty s.addr s.len) →
        endsIn n { t with inputs := moves } u →
        u.result = crc32cSpec s.seed bs ∧ u.acc = s.acc ∧ u.accValid = s.accValid ∧ u.table = s.table ∧
          u.tblValid = s.tblValid

/-- R177: the sequence of phases and the exact number of engine steps of a COMPUTE.SW that meets no refused read; TBLGEN takes
one engine step, COMPUTE.HW one. -/
def Obligations.StepCountsAreExact : Prop :=
  (∀ (s : State) (bs : List Byte), Inv s → s.busy = false → s.inputs = [] → s.tblValid = true →
    s.addr.toNat + s.len.toNat ≤ 2 ^ 64 → s.len ≠ 0#32 → bs.length = s.len.toNat → s.mem.holds s.addr bs →
    ∃ t, exec .computeSw s = .next t ∧ ∀ k, k ≤ softwareSteps s.addr.toNat s.len.toNat →
      ∃ u, runSteps k t = .next u ∧ u.phase = phaseAt s.addr.toNat s.len.toNat k ∧
        (u.busy = true ↔ k < softwareSteps s.addr.toNat s.len.toNat)) ∧
  (∀ s t u : State, s.inputs = [] → exec .tblgen s = .next t → step t = .next u → t.busy = true ∧ u.busy = false) ∧
  ∀ s t u : State, s.inputs = [] → s.busy = false → exec .computeHw s = .next t → t.busy = true → step t = .next u →
    u.busy = false

/-- R97, R41: a step from an idle block sets BUSY exactly when it submits a long command, one that is accepted and passes its
checks. R176, R177: from every state of the invariant a running command ends after at most REM + 1 engine steps. -/
def Obligations.EveryLongCommandEnds : Prop :=
  (∀ s t : State, step s = .next t → s.busy = false → (t.busy = true ↔ s.submitsLong = true)) ∧
  ∀ s : State, Inv s → s.inputs = [] → ∃ n u, n ≤ s.rem.toNat + 1 ∧ runSteps n s = .next u ∧ u.busy = false

/-- R181: over the same seed and bytes the hardware path and the software path both complete, and write the same RESULT however
the host's moves fall between the engine's steps. -/
def Obligations.HardwareAndSoftwarePathsAgree : Prop :=
  ∀ (s : State) (bs : List Byte), Inv s → s.busy = false → s.tblValid = true → s.hwAvail = true →
    s.addr.toNat + s.len.toNat ≤ 2 ^ 64 → bs.length = s.len.toNat → s.mem.holds s.addr bs →
    ∃ t v, exec .computeHw s = .next t ∧ exec .computeSw s = .next v ∧
      (∃ n u, endsIn n { t with inputs := [] } u) ∧ (∃ n u, endsIn n { v with inputs := [] } u) ∧
      ∀ (moves moves' : List Input) (n n' : Nat) (u u' : State), (∀ i ∈ moves, i.keepsDuty s.addr s.len) →
        (∀ i ∈ moves', i.keepsDuty s.addr s.len) → endsIn n { t with inputs := moves } u →
        endsIn n' { v with inputs := moves' } u' → u.result = u'.result

/-- R183: the chaining law, for every seed and all A and B, empty or not. -/
def Obligations.ChainingLaw : Prop :=
  ∀ (seed : Word) (as bs : List Byte), crc32cSpec (crc32cSpec seed as) bs = crc32cSpec seed (as ++ bs)

/-- R186: the known vector, by the reference function and by COMPUTE.SW at every address. -/
def Obligations.KnownVector : Prop :=
  crc32cSpec 0#32 [0x31#8, 0x32#8, 0x33#8, 0x34#8, 0x35#8, 0x36#8, 0x37#8, 0x38#8, 0x39#8] = 0xE3069283#32 ∧
  ∀ s : State, Inv s → s.busy = false → s.inputs = [] → s.tblValid = true → s.seed = 0#32 → s.len = 9#32 →
    s.addr.toNat + 9 ≤ 2 ^ 64 →
    s.mem.holds s.addr [0x31#8, 0x32#8, 0x33#8, 0x34#8, 0x35#8, 0x36#8, 0x37#8, 0x38#8, 0x39#8] →
    ∃ t u k, exec .computeSw s = .next t ∧ runSteps k t = .next u ∧ u.busy = false ∧ u.result = 0xE3069283#32

/-- R77: a write into the latched range of a running COMPUTE makes RESULT any value at its completion and affects nothing
else. The flag dutyBroken is the model's own (log entry 4). -/
def Obligations.BrokenBufferDutyFreesOnlyTheResult : Prop :=
  (∀ (s : State) (a : DWord) (b : Byte) (rest : List Input), s.inputs = .bufferWrite a b :: rest → s.busy = true →
    s.phase ≠ .tblgen → s.bufAddr.toNat ≤ a.toNat → a.toNat < s.bufAddr.toNat + s.bufLen.toNat →
    step s = .next { s.popped with mem := s.mem.write a b, dutyBroken := true }) ∧
  ∀ s : State, s.nextIsEngine = true → s.busy = true → s.dutyBroken = true →
    (s.phase = .finish ∨ (s.phase = .hwrun ∧ ∃ bs : List Byte, bs.length = s.rem.toNat ∧ s.mem.holds s.cur bs)) →
    ∃ t, step s = .next t ∧ t = { s.popped with
      result := t.result, busy := false, phase := .idle, draws := t.draws }

/-! ## The host's port -/

/-- R201: the value every legal read returns, by its offset. response and hostFaulted are the model's own record of the answer:
that a bus error sets the mark hostFaulted is the model's choice (log entry 11). -/
def Obligations.ReadsFollowTheRegisterMap : Prop :=
  ∀ (s : State) (off : DWord) (rest : List Input), s.inputs = .host ⟨off, .w32, .read⟩ :: rest → off.toNat % 4 = 0 →
    let returns := fun v : Word => step s = .next { s.popped with response := some (.value v) }
    (off = 0x000#64 → returns 0x82F63B78#32) ∧
    (off = 0x004#64 → returns ((phaseBits s.phase).setWidth 32 <<< 16 ||| (errBits s.errcode).setWidth 32 <<< 8 |||
      (BitVec.ofBool s.errovf).setWidth 32 <<< 4 ||| (BitVec.ofBool s.hwAvail).setWidth 32 <<< 3 |||
      (BitVec.ofBool s.accValid).setWidth 32 <<< 2 ||| (BitVec.ofBool s.tblValid).setWidth 32 <<< 1 |||
      (BitVec.ofBool s.busy).setWidth 32)) ∧
    (off = 0x008#64 → returns 0x00000000#32) ∧
    (off = 0x00C#64 → returns s.seed) ∧
    (off = 0x010#64 → returns s.len) ∧
    (off = 0x014#64 → returns (s.addr.extractLsb' 0 32)) ∧
    (off = 0x018#64 → returns (s.addr.extractLsb' 32 32)) ∧
    (off = 0x01C#64 → returns (s.data.extractLsb' 0 32)) ∧
    (off = 0x020#64 → returns (s.data.extractLsb' 32 32)) ∧
    (off = 0x024#64 → returns s.result) ∧
    (off = 0x028#64 → returns (s.errinfo.extractLsb' 0 32)) ∧
    (off = 0x02C#64 → returns (s.errinfo.extractLsb' 32 32)) ∧
    (0x030 ≤ off.toNat → off.toNat ≤ 0xFFC → returns 0x00000000#32) ∧
    (0x1000 ≤ off.toNat → off.toNat ≤ 0x2FFC → s.tblValid = true →
      returns (entry s.table ((off - 0x1000#64).extractLsb' 10 3) ((off - 0x1000#64).extractLsb' 2 8))) ∧
    (0x1000 ≤ off.toNat → off.toNat ≤ 0x2FFC → s.tblValid = false →
      step s = .next { s.popped with response := some .busError, hostFaulted := true })

/-- R202: what every legal write does, by its offset, in every state. -/
def Obligations.WritesFollowTheRegisterMap : Prop :=
  ∀ (s : State) (off : DWord) (v : Word) (rest : List Input), s.inputs = .host ⟨off, .w32, .write v⟩ :: rest →
    off.toNat % 4 = 0 → off.toNat ≤ 0x2FFC →
    (off = 0x008#64 → step s = submitCommand v (respond .done s.popped)) ∧
    (off = 0x00C#64 → step s = .next { s.popped with response := some .done, seed := v }) ∧
    (off = 0x010#64 → step s = .next { s.popped with response := some .done, len := v }) ∧
    (off = 0x014#64 → step s = .next { s.popped with response := some .done, addr := s.addr.extractLsb' 32 32 ++ v }) ∧
    (off = 0x018#64 → step s = .next { s.popped with response := some .done, addr := v ++ s.addr.extractLsb' 0 32 }) ∧
    (off = 0x01C#64 → step s = .next { s.popped with response := some .done, data := s.data.extractLsb' 32 32 ++ v }) ∧
    (off = 0x020#64 → step s = .next { s.popped with response := some .done, data := v ++ s.data.extractLsb' 0 32 }) ∧
    (off ∉ [0x008#64, 0x00C#64, 0x010#64, 0x014#64, 0x018#64, 0x01C#64, 0x020#64] →
      step s = .next { s.popped with response := some .done })

/-- R35: the TABLE window shows T[j][i] at 0x1000 + 0x400 j + 4 i, and ignores writes. -/
def Obligations.TableWindowShowsTheTable : Prop :=
  ∀ (j : BitVec 3) (i : Byte),
    (Reg.table j i).offset.toNat = 0x1000 + 0x400 * j.toNat + 4 * i.toNat ∧
    ∀ (s : State) (rest : List Input),
      (s.tblValid = true → s.inputs = inputRd (.table j i) :: rest →
        step s = .next { s.popped with response := some (.value (entry s.table j i)) }) ∧
      ∀ v : Word, s.inputs = inputWr (.table j i) v :: rest → step s = .next { s.popped with response := some .done }

/-- R200, R68, R229: an access of another width or alignment is answered with a bus error and changes no state of the block;
one outside the window is not the block's. hostFaulted is the model's own mark (log entry 11). -/
def Obligations.IllegalAccessesAreBusErrors : Prop :=
  ∀ (s : State) (a : HostAccess) (rest : List Input), s.inputs = .host a :: rest →
    (a.off.toNat < 0x3000 → (a.width ≠ .w32 ∨ a.off.toNat % 4 ≠ 0) →
      step s = .next { s.popped with response := some .busError, hostFaulted := true }) ∧
    (0x3000 ≤ a.off.toNat → step s = .next s.popped)

/-- R26, R43, R221: every field of STATUS at its place, the reserved bits 0, and the codes of PHASE and ERRCODE. -/
def Obligations.StatusFieldsAreInPlace : Prop :=
  (∀ s : State,
    (statusWord s).getLsbD 0 = s.busy ∧ (statusWord s).getLsbD 1 = s.tblValid ∧ (statusWord s).getLsbD 2 = s.accValid ∧
    (statusWord s).getLsbD 3 = s.hwAvail ∧ (statusWord s).getLsbD 4 = s.errovf ∧
    (statusWord s).extractLsb' 5 3 = 0#3 ∧ (statusWord s).extractLsb' 8 4 = errBits s.errcode ∧
    (statusWord s).extractLsb' 12 4 = 0#4 ∧ (statusWord s).extractLsb' 16 3 = phaseBits s.phase ∧
    (statusWord s).extractLsb' 19 13 = 0#13) ∧
  [Phase.idle, .head, .bulk, .tail, .finish, .tblgen, .hwrun].map phaseBits = [0#3, 1#3, 2#3, 3#3, 4#3, 5#3, 6#3] ∧
  [ErrCode.none, .illegalCmd, .cmdWhileBusy, .tableNotReady, .accNotValid, .hwUnavailable, .range, .busError].map errBits =
    [0#4, 1#4, 2#4, 3#4, 4#4, 5#4, 6#4, 7#4]

/-- R8, R200: BASE is a multiple of 0x1000, an access at BASE + off has offset off, and only [BASE, BASE + 0x3000) is the
block's. All of it is in the model's form of BASE (log entry 13): a page number above 12 zero bits, an access placed by the
address of its first byte, and addresses taken modulo 2^64, so that the window of the two highest pages wraps, where the spec's
bounds are exact. -/
def Obligations.WindowIsRelativeToBase : Prop :=
  Config.base.toNat % 0x1000 = 0 ∧
  (∀ (off : DWord) (width : Width) (op : HostOp), HostAccess.atAddress (Config.base + off) width op = ⟨off, width, op⟩) ∧
  ∀ (a : DWord) (width : Width) (op : HostOp),
    (HostAccess.atAddress a width op).inWindow = true ↔ ∃ k, k < 0x3000 ∧ a = Config.base + BitVec.ofNat 64 k

/-- R99, R208: WAIT ends, after finitely many steps, with STATUS read and BUSY = 0; how the engine's turns fall between its
polls is the model's choice (log entry 14). R207: a program that begins with the block idle and has ended leaves it idle, and
one that closes with WAIT ends. -/
def Obligations.WaitEndsWithBusyClear : Prop :=
  (∀ (s : State) (rest : List Input), Inv s → s.inputs = .wait :: rest →
    ∃ n u v, runSteps n s = .next u ∧ u.inputs = rest ∧ u.busy = false ∧ u.response = some (.value v) ∧
      v = statusWord u ∧ v.getLsbD 0 = false) ∧
  (∀ (s u : State) (n : Nat), s.busy = false → programEnds n s u → u.busy = false) ∧
  ∀ (s : State) (moves : List Input), Inv s → s.inputs = moves ++ [.wait] → ∃ n u, programEnds n s u

/-! ## Errors -/

/-- R204: CLRERR clears the error state and nothing else; it changes nothing when there is no error; it is accepted while an
error is recorded, and not while busy. After a BUS_ERROR has cleared ACC_VALID, only INIT or COMPUTE.SW sets it again. -/
def Obligations.ClrerrClearsTheErrorState : Prop :=
  encode .clrerr = 0x00000002#32 ∧
  ∀ s : State,
    exec .clrerr s = .next { s with errcode := .none, errovf := false, errinfo := 0#64 } ∧
    (Inv s → s.errcode = .none → exec .clrerr s = .next s) ∧
    (s.busy = false → submitCommand 0x00000002#32 s = exec .clrerr s) ∧
    (∀ w : Word, s.busy = false → s.errcode ≠ .none → w ≠ 0x00000002#32 →
      submitCommand w s = .next { s with errovf := true }) ∧
    (s.busy = true → submitCommand 0x00000002#32 s = .next (recordError .cmdWhileBusy 0x2#64 s)) ∧
    (statusWord s = 0x00000300#32 → ∃ t, exec .clrerr s = .next t ∧ statusWord t = 0x00000000#32 ∧ t.errinfo = 0#64) ∧
    ∀ t, step s = .next t → s.accValid = false → t.accValid = true →
      s.nextIsCommand (encode .init) = true ∨ s.nextIsCommand (encode .computeSw) = true

/-- R224: the first error is kept with its information, a later one only sets ERROVF, and the ghost FAULTED is set by every one
and never cleared. -/
def Obligations.FirstErrorIsKept : Prop :=
  (∀ (e : ErrCode) (info : DWord) (s : State),
    (s.errcode = .none → recordError e info s = { s with errcode := e, errinfo := info, faulted := true }) ∧
    (s.errcode ≠ .none → recordError e info s = { s with errovf := true, faulted := true })) ∧
  ∀ s t : State, step s = .next t → s.faulted = true → t.faulted = true

/-- R42, R32, R226: a recorded error, its information and ERROVF stay until an accepted CLRERR or reset. -/
def Obligations.ErrorStateClearedOnlyByClrerrOrReset : Prop :=
  ∀ s t : State, step s = .next t → s.nextIsReset = false → ¬(s.busy = false ∧ s.nextIsCommand 0x00000002#32 = true) →
    (s.errcode ≠ .none → t.errcode = s.errcode ∧ t.errinfo = s.errinfo) ∧ (s.errovf = true → t.errovf = true)

/-- R31, R220: RESULT changes only by reset, by an accepted FINAL, COMPUTE.SW or COMPUTE.HW, or by the step that ends a
COMPUTE; and no step that records an error or discards a command changes it, nor the hardware path when a byte is refused. -/
def Obligations.ResultChangesOnlyOnCompletion : Prop :=
  ∀ s t : State, step s = .next t →
    (t.result ≠ s.result →
      s.nextIsReset = true ∨
      (s.busy = false ∧ s.errcode = .none ∧ t.errcode = .none ∧ t.busy = false ∧
        ∃ i, (i = .final ∨ i = .computeSw ∨ i = .computeHw) ∧ s.nextIsCommand (encode i) = true) ∨
      (s.nextIsEngine = true ∧ s.busy = true ∧ t.busy = false ∧ (s.phase = .finish ∨ s.phase = .hwrun))) ∧
    ((s.errcode = .none ∧ t.errcode ≠ .none) ∨ (s.errovf = false ∧ t.errovf = true) → t.result = s.result) ∧
    (s.nextIsEngine = true → s.busy = true → s.phase = .hwrun →
      (∃ k, k < s.rem.toNat ∧ s.mem.readable (s.cur + BitVec.ofNat 64 k) = false) → t.result = s.result)

/-! ## What a command and the engine leave unchanged -/

/-- R44, R130, R172, R180, R204: the registers and flags each command writes; every other register, flag and special register
and every byte of memory is as before. -/
def Obligations.CommandsChangeOnlyTheirRegisters : Prop :=
  ∀ s t : State,
    (exec .tblgen s = .next t → t = { s with busy := t.busy, phase := t.phase }) ∧
    (exec .clrerr s = .next t → t = { s with errcode := t.errcode, errovf := t.errovf, errinfo := t.errinfo }) ∧
    (exec .init s = .next t → t = { s with acc := t.acc, accValid := t.accValid }) ∧
    (exec .byte s = .next t ∨ exec .fold8 s = .next t → t = { s with
      acc := t.acc, errcode := t.errcode, errovf := t.errovf, errinfo := t.errinfo, faulted := t.faulted }) ∧
    (exec .final s = .next t → t = { s with
      result := t.result, errcode := t.errcode, errovf := t.errovf, errinfo := t.errinfo, faulted := t.faulted }) ∧
    (exec .computeSw s = .next t → t = { s with
      result := t.result, cur := t.cur, rem := t.rem, acc := t.acc, accValid := t.accValid, busy := t.busy, phase := t.phase
      bufAddr := t.bufAddr, bufLen := t.bufLen, dutyBroken := t.dutyBroken
      errcode := t.errcode, errovf := t.errovf, errinfo := t.errinfo, faulted := t.faulted }) ∧
    (exec .computeHw s = .next t → t = { s with
      result := t.result, cur := t.cur, rem := t.rem, lseed := t.lseed, busy := t.busy, phase := t.phase
      bufAddr := t.bufAddr, bufLen := t.bufLen, dutyBroken := t.dutyBroken
      errcode := t.errcode, errovf := t.errovf, errinfo := t.errinfo, faulted := t.faulted }) ∧
    ∀ (i : Instr) (a : DWord), exec i s = .next t → t.mem.read a = s.mem.read a

/-- R165-R174, R115: what an engine step may write, by phase; the operand registers, HW_AVAIL, LSEED, the queue and every byte
of memory are as before, and only TBLGEN writes the table. -/
def Obligations.EngineStepsChangeOnlyTheirRegisters : Prop :=
  ∀ s t : State, s.busy = true → engineTurn s = .next t →
    (s.phase = .head ∨ s.phase = .bulk ∨ s.phase = .tail → t = { s with
      acc := t.acc, accValid := t.accValid, cur := t.cur, rem := t.rem, busy := t.busy, phase := t.phase
      errcode := t.errcode, errovf := t.errovf, errinfo := t.errinfo, faulted := t.faulted, draws := t.draws }) ∧
    (s.phase = .finish → t = { s with result := t.result, busy := t.busy, phase := t.phase, draws := t.draws }) ∧
    (s.phase = .tblgen → t = { s with table := t.table, tblValid := t.tblValid, busy := t.busy, phase := t.phase }) ∧
    (s.phase = .hwrun → t = { s with
      result := t.result, busy := t.busy, phase := t.phase
      errcode := t.errcode, errovf := t.errovf, errinfo := t.errinfo, faulted := t.faulted, draws := t.draws }) ∧
    ∀ a : DWord, t.mem.read a = s.mem.read a

/-- R62: no step of the block writes buffer memory; only another master's write does, and that changes no other byte. R10: no
step of any agent changes which reads memory answers. -/
def Obligations.BlockNeverWritesBufferMemory : Prop :=
  (∀ s t : State, step s = .next t → s.nextIsBufferWrite = false →
    ∀ a : DWord, t.mem.read a = s.mem.read a ∧ t.mem.contents a = s.mem.contents a) ∧
  (∀ (s t : State) (a : DWord) (b : Byte) (rest : List Input), s.inputs = .bufferWrite a b :: rest → step s = .next t →
    t.mem.contents a = b ∧ ∀ a' : DWord, a' ≠ a → t.mem.contents a' = s.mem.contents a' ∧ t.mem.read a' = s.mem.read a') ∧
  ∀ s t : State, step s = .next t → ∀ a : DWord, t.mem.readable a = s.mem.readable a

/-- R49: the capability flag, and STATUS bit 3, is constant between resets. -/
def Obligations.CapabilityFlagIsConstant : Prop :=
  ∀ s t : State, step s = .next t → s.nextIsReset = false →
    t.hwAvail = s.hwAvail ∧ (statusWord t).getLsbD 3 = (statusWord s).getLsbD 3

/-- R44, R169: ACC_VALID is set only by INIT and COMPUTE.SW and cleared only by reset and by a refused read of the software
path, which records BUS_ERROR, or ERROVF where an error is already recorded. -/
def Obligations.AccValidChangesOnlyAsSummarised : Prop :=
  ∀ s t : State, step s = .next t →
    (s.accValid = false → t.accValid = true →
      s.nextIsCommand (encode .init) = true ∨ (s.nextIsCommand (encode .computeSw) = true ∧ s.len ≠ 0#32)) ∧
    (s.accValid = true → t.accValid = false →
      s.nextIsReset = true ∨
      (s.nextIsEngine = true ∧ s.busy = true ∧ t.busy = false ∧ t.faulted = true ∧
        (((s.phase = .head ∨ s.phase = .tail) ∧ s.mem.readable s.cur = false) ∨
          (s.phase = .bulk ∧ ∃ k, k < 8 ∧ s.mem.readable (s.cur + BitVec.ofNat 64 k) = false)) ∧
        (s.errcode = .none → t.errcode = .busError ∧ t.errinfo = s.cur) ∧ (s.errcode ≠ .none → t.errovf = true)))

/-! ## Reset -/

/-- R48: the values the spec gives for reset. The values of TABLE, ACC, CUR, REM and LSEED are the model's choice (log entry 7)
and are not stated. -/
def Obligations.ResetValues : Prop :=
  State.reset.tblValid = false ∧ State.reset.accValid = false ∧ State.reset.hwAvail = Config.hwPresent ∧
  State.reset.busy = false ∧ State.reset.phase = .idle ∧ State.reset.errcode = .none ∧ State.reset.errovf = false ∧
  State.reset.errinfo = 0#64 ∧ State.reset.seed = 0#32 ∧ State.reset.len = 0#32 ∧ State.reset.addr = 0#64 ∧
  State.reset.data = 0#64 ∧ State.reset.result = 0#32 ∧
  statusWord State.reset = (BitVec.ofBool Config.hwPresent).setWidth 32 <<< 3

/-- R261, R260, R48: while the reset input is asserted the block holds its reset values, whichever access arrives, and a running
command is abandoned: the block is idle and the engine takes no further step of it. That HW_AVAIL follows the strap at each
such instant is the model's choice (log entry 8), and so are that memory, the queue, the ghost FAULTED and, with no access, the
last answer stay, and how an access is answered (log entry 16). -/
def Obligations.ResetAbandonsTheCommand : Prop :=
  ∀ (s : State) (p : Bool) (access : Option HostAccess) (rest : List Input), s.inputs = .reset p access :: rest →
    ∃ t, step s = .next t ∧ t.busy = false ∧ t.phase = .idle ∧ engineTurn t = .next t ∧ t.tblValid = false ∧
      t.accValid = false ∧ t.errcode = .none ∧ t.errovf = false ∧ t.errinfo = 0#64 ∧ t.seed = 0#32 ∧ t.len = 0#32 ∧
      t.addr = 0#64 ∧ t.data = 0#64 ∧ t.result = 0#32 ∧ t.hwAvail = p ∧ t.mem = s.mem ∧ t.inputs = rest ∧
      t.faulted = s.faulted ∧ (access = none → t.response = s.response) ∧
      (∀ (r : Reg) (v : Word), r.offset.toNat % 4 = 0 → access = some (HostAccess.wr r v) → t.response = some .done) ∧
      (access = some (HostAccess.rd .status) → t.response = some (.value ((BitVec.ofBool p).setWidth 32 <<< 3))) ∧
      ∀ r : Reg, r ∈ [Reg.seed, .len, .addrLo, .addrHi, .dataLo, .dataHi, .result, .errinfoLo, .errinfoHi] →
        access = some (HostAccess.rd r) → t.response = some (.value 0#32)

/-! ## Invariants -/

/-- The block's invariant holds at reset. -/
def Obligations.InvariantAtReset : Prop := Inv State.reset

/-- R46: its invariants hold after every step of every agent. -/
def Obligations.SequencerInvariantKept : Prop :=
  ∀ s t : State, SequencerInv s → step s = .next t →
    SequencerInv t ∧ (s.tblValid = true → s.nextIsReset = false → t.tblValid = true)

/-- Every step keeps the block's invariant: R46's part, the table while TBL_VALID = 1, the error state, the buffer being read,
and memory's canonical form. -/
def Obligations.BlockInvariantKept : Prop := ∀ s t : State, Inv s → step s = .next t → Inv t

/-- From a state of the invariant no step stops: the block's errors are recorded, never a stop (R220), and no host access stops
it (R229). -/
def Obligations.NoStepStops : Prop := ∀ s : State, Inv s → ∃ t, step s = .next t
end

