-- ==== Sys2Proof/Laws/Crc.lean ====
section
/-! SUPPORT. The laws of the arithmetic: the entries of the generated table, widths, the complement, and linearity of one
shift. -/

namespace Sys2Proof.Machine

/-- A table built by a function of row and column holds that function's values. -/
theorem entry_vectorOf (f : Nat → Nat → Word) (j : BitVec 3) (i : Byte) :
    entry (vectorOf 8 fun j => vectorOf 256 (f j)) j i = f j.toNat i.toNat := by
  simp [entry, vectorOf]

/-- The entries of GenTable() (40_table_generation.md R113). -/
theorem entry_genTable (j : BitVec 3) (i : Byte) : entry genTable j i = tableEntry j.toNat i := by
  unfold genTable
  rw [entry_vectorOf (fun j i => tableEntry j (BitVec.ofNat 8 i))]
  simp

/-- The byte step over the generated table. -/
theorem byteStep_genTable (acc : DWord) (b : Byte) :
    byteStep genTable acc b = (row0 (byteOf 0 acc ^^^ b)).setWidth 64 ^^^ (acc >>> 8) := by
  simp [byteStep, entry_genTable, tableEntry]

/-- The high half of a pair is 0 iff the pair's value fits in 32 bits. -/
theorem highHalf_eq_zero_iff (x : DWord) : highHalf x = 0#32 ↔ x.toNat < 2 ^ 32 := by
  rw [← BitVec.toNat_inj]
  simp only [highHalf, BitVec.extractLsb'_toNat, BitVec.toNat_ofNat, Nat.shiftRight_eq_div_pow]
  have := x.isLt
  omega

/-- A byte step of a value below 2^40 is below 2^32, whatever the table holds (41_accumulator_ops.md R131). -/
theorem byteStep_lt (t : Table) {acc : DWord} (h : acc.toNat < 2 ^ 40) (b : Byte) :
    (byteStep t acc b).toNat < 2 ^ 32 := by
  simp only [byteStep, BitVec.toNat_xor, BitVec.toNat_setWidth, BitVec.toNat_ushiftRight, Nat.shiftRight_eq_div_pow]
  apply Nat.xor_lt_two_pow
  · have := (entry t 0#3 (byteOf 0 acc ^^^ b)).isLt
    omega
  · omega

/-- A fold is below 2^32, whatever the table holds (41_accumulator_ops.md R131). -/
theorem fold8_lt (t : Table) (acc w : DWord) : (fold8 t acc w).toNat < 2 ^ 32 := by
  simp only [fold8, BitVec.toNat_setWidth]
  have := (foldLanes t (acc ^^^ w)).isLt
  omega

/-- INIT writes a value below 2^32 (41_accumulator_ops.md R131). -/
theorem enterDomain_lt (seed : Word) : (enterDomain seed).toNat < 2 ^ 32 := by
  simp only [enterDomain, BitVec.toNat_xor, BitVec.toNat_setWidth, BitVec.toNat_ofNat]
  apply Nat.xor_lt_two_pow
  · have := seed.isLt
    omega
  · decide

/-- The double complement (41_accumulator_ops.md R141). -/
theorem finish_enterDomain (seed : Word) : finish (enterDomain seed) = seed := by
  simp only [finish, enterDomain, BitVec.xor_assoc, BitVec.xor_self, BitVec.xor_zero]
  simp

/-- Entering the domain undoes leaving it, for a value below 2^32 (42_compute_dispatch.md R183). -/
theorem enterDomain_finish {acc : DWord} (h : acc.toNat < 2 ^ 32) : enterDomain (finish acc) = acc := by
  have e : acc = (acc.setWidth 32).setWidth 64 := by
    apply BitVec.eq_of_toNat_eq
    simp
    omega
  rw [e]
  generalize acc.setWidth 32 = a
  have hm : (0x00000000FFFFFFFF#64) = (BitVec.allOnes 32).setWidth 64 := by decide
  apply BitVec.eq_of_getLsbD_eq
  intro i hi
  simp only [finish, enterDomain, hm, BitVec.getLsbD_xor, BitVec.getLsbD_setWidth, BitVec.getLsbD_allOnes, hi, decide_true,
    Bool.true_and]
  by_cases h2 : i < 32
  · simp [h2]
  · simp [h2, BitVec.getLsbD_of_ge a i (by omega)]

/-- One iteration of the table algorithm is linear (40_table_generation.md R117). -/
theorem crcShift_xor (a b : Word) : crcShift (a ^^^ b) = crcShift a ^^^ crcShift b := by
  simp only [crcShift, BitVec.getLsbD_xor, BitVec.ushiftRight_xor_distrib]
  cases a.getLsbD 0 <;> cases b.getLsbD 0 <;> ext i <;> simp <;> grind

end Sys2Proof.Machine
end

