-- ==== Sys2Proof/Laws/Memory.lean ====
section
/-! SUPPORT. The laws of buffer memory: read after write, the canonical form, and range reads. -/

namespace Sys2Proof.Machine

/-- A list above lo is above every smaller bound. -/
theorem Cells.wfFrom_mono {m : Cells} {lo lo' : Nat} (h : lo' ≤ lo) (hm : m.wfFrom lo = true) : m.wfFrom lo' = true := by
  cases m with
  | nil => rfl
  | cons c m =>
    obtain ⟨a, b⟩ := c
    simp only [Cells.wfFrom, Bool.and_eq_true, decide_eq_true_eq] at hm ⊢
    exact ⟨⟨by omega, hm.1.2⟩, hm.2⟩

/-- Setting a byte keeps the canonical form above a bound at or below its address. -/
theorem Cells.insert_wfFrom {k : Nat} {b : Byte} (hk : k < 2 ^ 64) (m : Cells) (lo : Nat) (hlo : lo ≤ k)
    (hm : m.wfFrom lo = true) : (m.insert k b).wfFrom lo = true := by
  induction m generalizing lo with
  | nil => simp [Cells.insert, Cells.wfFrom, hlo]; omega
  | cons c m ih =>
    obtain ⟨a, c⟩ := c
    simp only [Cells.wfFrom, Bool.and_eq_true, decide_eq_true_eq] at hm
    unfold Cells.insert
    split
    · simp only [Cells.wfFrom, Bool.and_eq_true, decide_eq_true_eq]
      exact ⟨⟨hlo, hk⟩, ⟨by omega, hm.1.2⟩, hm.2⟩
    · split
      · subst_vars
        simp only [Cells.wfFrom, Bool.and_eq_true, decide_eq_true_eq]
        exact ⟨⟨hlo, hk⟩, hm.2⟩
      · simp only [Cells.wfFrom, Bool.and_eq_true, decide_eq_true_eq]
        exact ⟨hm.1, ih _ (by omega) hm.2⟩

/-- Below its bound a canonical list has nothing written. -/
theorem Cells.lookup_below {m : Cells} {lo k : Nat} (hm : m.wfFrom lo = true) (hk : k < lo) : m.lookup k = none := by
  induction m generalizing lo with
  | nil => rfl
  | cons c m ih =>
    obtain ⟨a, c⟩ := c
    simp only [Cells.wfFrom, Bool.and_eq_true, decide_eq_true_eq] at hm
    have : a ≠ k := by omega
    simp only [Cells.lookup, this, if_false]
    exact ih hm.2 (by omega)

/-- The byte just set is the byte found. -/
theorem Cells.lookup_insert_same (m : Cells) (k : Nat) (b : Byte) : (m.insert k b).lookup k = some b := by
  induction m with
  | nil => simp [Cells.insert, Cells.lookup]
  | cons c m ih =>
    obtain ⟨a, c⟩ := c
    unfold Cells.insert
    split
    · simp [Cells.lookup]
    · split
      · simp [Cells.lookup]
      · rename_i h1 h2
        have : a ≠ k := fun e => h2 e.symm
        simp [Cells.lookup, this, ih]

/-- Setting a byte leaves every other address as it was. -/
theorem Cells.lookup_insert_other (m : Cells) {k k' : Nat} (h : k' ≠ k) (b : Byte) :
    (m.insert k b).lookup k' = m.lookup k' := by
  induction m with
  | nil => simp [Cells.insert, Cells.lookup, Ne.symm h]
  | cons c m ih =>
    obtain ⟨a, c⟩ := c
    unfold Cells.insert
    split
    · simp [Cells.lookup, Ne.symm h]
    · split
      · subst_vars; simp [Cells.lookup, Ne.symm h]
      · simp [Cells.lookup, ih]

/-- Two canonical lists with the same bytes written are the same list. -/
theorem Cells.ext_of_wfFrom {m m' : Cells} {lo : Nat} (hm : m.wfFrom lo = true) (hm' : m'.wfFrom lo = true)
    (h : ∀ k, m.lookup k = m'.lookup k) : m = m' := by
  induction m generalizing m' lo with
  | nil =>
    cases m' with
    | nil => rfl
    | cons c m' => obtain ⟨a, b⟩ := c; simpa [Cells.lookup] using h a
  | cons c m ih =>
    obtain ⟨a, b⟩ := c
    cases m' with
    | nil => simpa [Cells.lookup] using h a
    | cons c' m' =>
      obtain ⟨a', b'⟩ := c'
      simp only [Cells.wfFrom, Bool.and_eq_true, decide_eq_true_eq] at hm hm'
      have haa : a = a' := by
        rcases Nat.lt_trichotomy a a' with hlt | heq | hgt
        · have := h a
          have h2 : (a' ≠ a) := by omega
          simp [Cells.lookup, h2, Cells.lookup_below hm'.2 (by omega : a < a' + 1)] at this
        · exact heq
        · have := h a'
          have h2 : (a ≠ a') := by omega
          simp [Cells.lookup, h2, Cells.lookup_below hm.2 (by omega : a' < a + 1)] at this
      subst haa
      have hb : b = b' := by simpa [Cells.lookup] using h a
      subst hb
      congr 1
      refine ih hm.2 hm'.2 (fun k => ?_)
      by_cases hk : a = k
      · subst hk; rw [Cells.lookup_below hm.2 (by omega), Cells.lookup_below hm'.2 (by omega)]
      · simpa [Cells.lookup, hk] using h k

/-- Below its bound a canonical list of spans covers nothing. -/
theorem Spans.covers_below {ps : Spans} {lo k : Nat} (h : ps.wfFrom lo = true) (hk : k < lo) : ps.covers k = false := by
  induction ps generalizing lo with
  | nil => rfl
  | cons p ps ih =>
    simp only [Spans.wfFrom, Bool.and_eq_true, decide_eq_true_eq] at h
    have h1 : ¬p.lo ≤ k := by omega
    simp [Spans.covers, h1, ih h.2 (by omega)]

/-- Two canonical lists of spans that cover the same addresses are the same list. -/
theorem Spans.ext_of_wfFrom {ps qs : Spans} {lo : Nat} (hp : ps.wfFrom lo = true) (hq : qs.wfFrom lo = true)
    (h : ∀ k, ps.covers k = qs.covers k) : ps = qs := by
  induction ps generalizing qs lo with
  | nil =>
    cases qs with
    | nil => rfl
    | cons q qs =>
      simp only [Spans.wfFrom, Bool.and_eq_true, decide_eq_true_eq] at hq
      have := h q.lo
      simp [Spans.covers, hq.1.1.2] at this
  | cons p ps ih =>
    cases qs with
    | nil =>
      simp only [Spans.wfFrom, Bool.and_eq_true, decide_eq_true_eq] at hp
      have := h p.lo
      simp [Spans.covers, hp.1.1.2] at this
    | cons q qs =>
      simp only [Spans.wfFrom, Bool.and_eq_true, decide_eq_true_eq] at hp hq
      have inside : ∀ {r : Span} {rs : Spans} {k : Nat}, r.lo ≤ k → k < r.hi → Spans.covers (r :: rs) k = true := by
        intro r rs k h1 h2; simp [Spans.covers, h1, h2]
      have before : ∀ {r : Span} {rs : Spans} {k : Nat}, rs.wfFrom (r.hi + 1) = true → k < r.lo → r.lo < r.hi →
          Spans.covers (r :: rs) k = false := by
        intro r rs k hr h1 h2
        have h3 : ¬r.lo ≤ k := by omega
        simp [Spans.covers, h3, Spans.covers_below hr (by omega : k < r.hi + 1)]
      have atEnd : ∀ {r : Span} {rs : Spans}, rs.wfFrom (r.hi + 1) = true → Spans.covers (r :: rs) r.hi = false := by
        intro r rs hr
        simp [Spans.covers, Spans.covers_below hr (Nat.lt_succ_self _)]
      have hlo : p.lo = q.lo := by
        rcases Nat.lt_trichotomy p.lo q.lo with hlt | heq | hgt
        · have := h p.lo
          rw [inside (Nat.le_refl _) hp.1.1.2, before hq.2 hlt hq.1.1.2] at this; cases this
        · exact heq
        · have := h q.lo
          rw [inside (r := q) (Nat.le_refl _) hq.1.1.2, before hp.2 hgt hp.1.1.2] at this; cases this
      have hhi : p.hi = q.hi := by
        rcases Nat.lt_trichotomy p.hi q.hi with hlt | heq | hgt
        · have := h p.hi
          rw [atEnd hp.2, inside (by omega) hlt] at this; cases this
        · exact heq
        · have := h q.hi
          rw [atEnd hq.2, inside (by omega) hgt] at this; cases this
      have hpq : p = q := by cases p; cases q; simp_all
      subst hpq
      congr 1
      refine ih hp.2 hq.2 (fun k => ?_)
      by_cases hk : k < p.hi + 1
      · rw [Spans.covers_below hp.2 hk, Spans.covers_below hq.2 hk]
      · have := h k
        have h2 : ¬k < p.hi := by omega
        simpa [Spans.covers, h2] using this

/-- Every write keeps the canonical form. -/
theorem Memory.write_wf {m : Memory} (hm : m.wf = true) (a : DWord) (b : Byte) : (m.write a b).wf = true := by
  simp only [Memory.wf, Bool.and_eq_true] at hm ⊢
  exact ⟨Cells.insert_wfFrom a.isLt _ 0 (Nat.zero_le _) hm.1, hm.2⟩

/-- No write changes which reads memory answers (00_scope.md R10). -/
@[simp] theorem Memory.readable_write (m : Memory) (a a' : DWord) (b : Byte) : (m.write a b).readable a' = m.readable a' := rfl

/-- After a write the address holds the byte written. -/
theorem Memory.contents_write_same (m : Memory) (a : DWord) (b : Byte) : (m.write a b).contents a = b := by
  simp [Memory.contents, Memory.write, Cells.lookup_insert_same]

/-- A write leaves the byte at every other address as it was. -/
theorem Memory.contents_write_other (m : Memory) {a a' : DWord} (h : a' ≠ a) (b : Byte) :
    (m.write a b).contents a' = m.contents a' := by
  simp [Memory.contents, Memory.write, Cells.lookup_insert_other _ (fun e => h (BitVec.eq_of_toNat_eq e))]

/-- A read after a write to the same address, where memory answers it, gives the byte written. -/
theorem Memory.read_write_same (m : Memory) (a : DWord) (b : Byte) :
    (m.write a b).read a = if m.readable a then some b else none := by
  simp [Memory.read, Memory.contents_write_same]

/-- A write leaves the read of every other address as it was. -/
theorem Memory.read_write_other (m : Memory) {a a' : DWord} (h : a' ≠ a) (b : Byte) : (m.write a b).read a' = m.read a' := by
  simp [Memory.read, Memory.contents_write_other m h]

/-- A read is answered iff the address is readable. -/
@[simp] theorem Memory.isSome_read (m : Memory) (a : DWord) : (m.read a).isSome = m.readable a := by
  unfold Memory.read; split <;> simp_all

/-- A read is refused iff the address is not readable. -/
theorem Memory.read_eq_none_iff (m : Memory) (a : DWord) : m.read a = none ↔ m.readable a = false := by
  rw [← Memory.isSome_read]; cases m.read a <;> simp

/-- A range is refused iff some address of it is (20_memory.md R83). -/
theorem Memory.readRange_eq_none_iff (m : Memory) (a : DWord) (n : Nat) : m.readRange a n = none ↔ m.refused a n ≠ [] := by
  induction n generalizing a with
  | zero => simp [Memory.readRange, Memory.refused]
  | succ n ih =>
    have ih' := ih (a + 1#64)
    simp only [Memory.readRange, Memory.refused]
    by_cases hr : m.readable a = true
    · obtain ⟨b, hb⟩ := Option.isSome_iff_exists.mp ((m.isSome_read a).trans hr)
      rw [if_pos hr, hb, ← ih']
      cases m.readRange (a + 1#64) n <;> simp
    · have hb : m.read a = none := (m.read_eq_none_iff a).mpr (by simpa using hr)
      simp [hr, hb]

/-- Every address listed as refused is refused and lies in the range (42_compute_dispatch.md R174). -/
theorem Memory.mem_refused (m : Memory) {a x : DWord} {n : Nat} (h : x ∈ m.refused a n) :
    m.readable x = false ∧ ∃ k < n, x = a + BitVec.ofNat 64 k := by
  induction n generalizing a with
  | zero => simp [Memory.refused] at h
  | succ n ih =>
    simp only [Memory.refused] at h
    split at h
    · obtain ⟨hx, k, hk, rfl⟩ := ih h
      refine ⟨hx, k + 1, by omega, ?_⟩
      rw [Nat.add_comm k 1, BitVec.ofNat_add, BitVec.add_assoc]
    · rename_i hr
      simp only [List.mem_cons] at h
      rcases h with rfl | h
      · exact ⟨by simpa using hr, 0, by omega, by simp⟩
      · obtain ⟨hx, k, hk, rfl⟩ := ih h
        refine ⟨hx, k + 1, by omega, ?_⟩
        rw [Nat.add_comm k 1, BitVec.ofNat_add, BitVec.add_assoc]

/-- A range read gives as many bytes as were asked for. -/
theorem Memory.readRange_length {m : Memory} {a : DWord} {n : Nat} {bs : List Byte} (h : m.readRange a n = some bs) :
    bs.length = n := by
  induction n generalizing a bs with
  | zero => simp [Memory.readRange] at h; subst h; rfl
  | succ n ih =>
    simp only [Memory.readRange] at h
    split at h
    · rename_i h1 h2; simp at h; subst h; simp [ih h2]
    · simp at h

/-- A range is read in two parts. -/
theorem Memory.readRange_add (m : Memory) (a : DWord) (n k : Nat) :
    m.readRange a (n + k) = match m.readRange a n, m.readRange (a + BitVec.ofNat 64 n) k with
      | some xs, some ys => some (xs ++ ys)
      | _, _ => none := by
  induction n generalizing a with
  | zero => simp [Memory.readRange]; cases m.readRange a k <;> rfl
  | succ n ih =>
    rw [Nat.succ_add]
    simp only [Memory.readRange]
    rw [ih]
    have : a + 1#64 + BitVec.ofNat 64 n = a + BitVec.ofNat 64 (n + 1) := by
      rw [Nat.add_comm n 1, BitVec.ofNat_add, BitVec.add_assoc]
    rw [this]
    cases m.read a <;> cases m.readRange (a + 1#64) n <;> cases m.readRange (a + BitVec.ofNat 64 (n + 1)) k <;> simp

/-- The value of n bytes is below 256^n. -/
theorem littleEndian_lt (bs : List Byte) : littleEndian bs < 256 ^ bs.length := by
  induction bs with
  | nil => simp [littleEndian]
  | cons b bs ih =>
    have := b.isLt
    simp only [littleEndian, List.length_cons, pow_succ]
    omega

/-- byte_k of an 8-byte read is the byte at address a + k (20_memory.md R63). -/
theorem byteOf_read8 {m : Memory} {a w : DWord} {bs : List Byte} (h : m.readRange a 8 = some bs)
    (hw : m.read8 a = some w) (k : Nat) : byteOf k w = bs.getD k 0#8 := by
  simp only [Memory.read8, h, Option.some.injEq] at hw
  subst hw
  have hl := Memory.readRange_length h
  have : ∀ (bs : List Byte) (k : Nat), littleEndian bs / 256 ^ k % 256 = (bs.getD k 0#8).toNat := by
    intro bs k
    induction bs generalizing k with
    | nil => simp [littleEndian]
    | cons b bs ih =>
      have := b.isLt
      cases k with
      | zero => simp [littleEndian]; omega
      | succ k =>
        simp only [littleEndian, List.getD_cons_succ, pow_succ']
        rw [← ih k, ← Nat.div_div_eq_div_mul]
        congr 2; omega
  have h2 := this bs k
  have h3 := littleEndian_lt bs
  rw [hl] at h3
  apply BitVec.eq_of_toNat_eq
  rw [← h2]
  simp only [byteOf, BitVec.extractLsb'_toNat, BitVec.toNat_ofNat, Nat.shiftRight_eq_div_pow]
  rw [Nat.mod_eq_of_lt (by omega : littleEndian bs < 2 ^ 64), Nat.pow_mul]

end Sys2Proof.Machine
end

