-- ==== Sys2Proof/Laws/State.lean ====
section
/-! SUPPORT. One lemma per field per update: what each shared update of the state writes, and that it leaves every other
field as it was. Later proofs cite these and never unfold a record update. -/

namespace Sys2Proof.Machine

variable (s : State)


section popped

@[simp] theorem popped_table : (s.popped).table = s.table := rfl
@[simp] theorem popped_tblValid : (s.popped).tblValid = s.tblValid := rfl
@[simp] theorem popped_acc : (s.popped).acc = s.acc := rfl
@[simp] theorem popped_accValid : (s.popped).accValid = s.accValid := rfl
@[simp] theorem popped_hwAvail : (s.popped).hwAvail = s.hwAvail := rfl
@[simp] theorem popped_seed : (s.popped).seed = s.seed := rfl
@[simp] theorem popped_len : (s.popped).len = s.len := rfl
@[simp] theorem popped_addr : (s.popped).addr = s.addr := rfl
@[simp] theorem popped_data : (s.popped).data = s.data := rfl
@[simp] theorem popped_result : (s.popped).result = s.result := rfl
@[simp] theorem popped_errcode : (s.popped).errcode = s.errcode := rfl
@[simp] theorem popped_errovf : (s.popped).errovf = s.errovf := rfl
@[simp] theorem popped_errinfo : (s.popped).errinfo = s.errinfo := rfl
@[simp] theorem popped_busy : (s.popped).busy = s.busy := rfl
@[simp] theorem popped_phase : (s.popped).phase = s.phase := rfl
@[simp] theorem popped_cur : (s.popped).cur = s.cur := rfl
@[simp] theorem popped_rem : (s.popped).rem = s.rem := rfl
@[simp] theorem popped_lseed : (s.popped).lseed = s.lseed := rfl
@[simp] theorem popped_mem : (s.popped).mem = s.mem := rfl
@[simp] theorem popped_inputs : (s.popped).inputs = s.inputs.tail := rfl
@[simp] theorem popped_response : (s.popped).response = s.response := rfl
@[simp] theorem popped_faulted : (s.popped).faulted = s.faulted := rfl
@[simp] theorem popped_hostFaulted : (s.popped).hostFaulted = s.hostFaulted := rfl
@[simp] theorem popped_bufAddr : (s.popped).bufAddr = s.bufAddr := rfl
@[simp] theorem popped_bufLen : (s.popped).bufLen = s.bufLen := rfl
@[simp] theorem popped_dutyBroken : (s.popped).dutyBroken = s.dutyBroken := rfl
@[simp] theorem popped_draws : (s.popped).draws = s.draws := rfl

end popped

section clearError

@[simp] theorem clearError_table : (clearError s).table = s.table := rfl
@[simp] theorem clearError_tblValid : (clearError s).tblValid = s.tblValid := rfl
@[simp] theorem clearError_acc : (clearError s).acc = s.acc := rfl
@[simp] theorem clearError_accValid : (clearError s).accValid = s.accValid := rfl
@[simp] theorem clearError_hwAvail : (clearError s).hwAvail = s.hwAvail := rfl
@[simp] theorem clearError_seed : (clearError s).seed = s.seed := rfl
@[simp] theorem clearError_len : (clearError s).len = s.len := rfl
@[simp] theorem clearError_addr : (clearError s).addr = s.addr := rfl
@[simp] theorem clearError_data : (clearError s).data = s.data := rfl
@[simp] theorem clearError_result : (clearError s).result = s.result := rfl
@[simp] theorem clearError_errcode : (clearError s).errcode = .none := rfl
@[simp] theorem clearError_errovf : (clearError s).errovf = false := rfl
@[simp] theorem clearError_errinfo : (clearError s).errinfo = 0#64 := rfl
@[simp] theorem clearError_busy : (clearError s).busy = s.busy := rfl
@[simp] theorem clearError_phase : (clearError s).phase = s.phase := rfl
@[simp] theorem clearError_cur : (clearError s).cur = s.cur := rfl
@[simp] theorem clearError_rem : (clearError s).rem = s.rem := rfl
@[simp] theorem clearError_lseed : (clearError s).lseed = s.lseed := rfl
@[simp] theorem clearError_mem : (clearError s).mem = s.mem := rfl
@[simp] theorem clearError_inputs : (clearError s).inputs = s.inputs := rfl
@[simp] theorem clearError_response : (clearError s).response = s.response := rfl
@[simp] theorem clearError_faulted : (clearError s).faulted = s.faulted := rfl
@[simp] theorem clearError_hostFaulted : (clearError s).hostFaulted = s.hostFaulted := rfl
@[simp] theorem clearError_bufAddr : (clearError s).bufAddr = s.bufAddr := rfl
@[simp] theorem clearError_bufLen : (clearError s).bufLen = s.bufLen := rfl
@[simp] theorem clearError_dutyBroken : (clearError s).dutyBroken = s.dutyBroken := rfl
@[simp] theorem clearError_draws : (clearError s).draws = s.draws := rfl

end clearError

section beginLong

variable (p : Phase)

@[simp] theorem beginLong_table : (beginLong p s).table = s.table := rfl
@[simp] theorem beginLong_tblValid : (beginLong p s).tblValid = s.tblValid := rfl
@[simp] theorem beginLong_acc : (beginLong p s).acc = s.acc := rfl
@[simp] theorem beginLong_accValid : (beginLong p s).accValid = s.accValid := rfl
@[simp] theorem beginLong_hwAvail : (beginLong p s).hwAvail = s.hwAvail := rfl
@[simp] theorem beginLong_seed : (beginLong p s).seed = s.seed := rfl
@[simp] theorem beginLong_len : (beginLong p s).len = s.len := rfl
@[simp] theorem beginLong_addr : (beginLong p s).addr = s.addr := rfl
@[simp] theorem beginLong_data : (beginLong p s).data = s.data := rfl
@[simp] theorem beginLong_result : (beginLong p s).result = s.result := rfl
@[simp] theorem beginLong_errcode : (beginLong p s).errcode = s.errcode := rfl
@[simp] theorem beginLong_errovf : (beginLong p s).errovf = s.errovf := rfl
@[simp] theorem beginLong_errinfo : (beginLong p s).errinfo = s.errinfo := rfl
@[simp] theorem beginLong_busy : (beginLong p s).busy = true := rfl
@[simp] theorem beginLong_phase : (beginLong p s).phase = p := rfl
@[simp] theorem beginLong_cur : (beginLong p s).cur = s.cur := rfl
@[simp] theorem beginLong_rem : (beginLong p s).rem = s.rem := rfl
@[simp] theorem beginLong_lseed : (beginLong p s).lseed = s.lseed := rfl
@[simp] theorem beginLong_mem : (beginLong p s).mem = s.mem := rfl
@[simp] theorem beginLong_inputs : (beginLong p s).inputs = s.inputs := rfl
@[simp] theorem beginLong_response : (beginLong p s).response = s.response := rfl
@[simp] theorem beginLong_faulted : (beginLong p s).faulted = s.faulted := rfl
@[simp] theorem beginLong_hostFaulted : (beginLong p s).hostFaulted = s.hostFaulted := rfl
@[simp] theorem beginLong_bufAddr : (beginLong p s).bufAddr = s.bufAddr := rfl
@[simp] theorem beginLong_bufLen : (beginLong p s).bufLen = s.bufLen := rfl
@[simp] theorem beginLong_dutyBroken : (beginLong p s).dutyBroken = s.dutyBroken := rfl
@[simp] theorem beginLong_draws : (beginLong p s).draws = s.draws := rfl

end beginLong

section endLong

@[simp] theorem endLong_table : (endLong s).table = s.table := rfl
@[simp] theorem endLong_tblValid : (endLong s).tblValid = s.tblValid := rfl
@[simp] theorem endLong_acc : (endLong s).acc = s.acc := rfl
@[simp] theorem endLong_accValid : (endLong s).accValid = s.accValid := rfl
@[simp] theorem endLong_hwAvail : (endLong s).hwAvail = s.hwAvail := rfl
@[simp] theorem endLong_seed : (endLong s).seed = s.seed := rfl
@[simp] theorem endLong_len : (endLong s).len = s.len := rfl
@[simp] theorem endLong_addr : (endLong s).addr = s.addr := rfl
@[simp] theorem endLong_data : (endLong s).data = s.data := rfl
@[simp] theorem endLong_result : (endLong s).result = s.result := rfl
@[simp] theorem endLong_errcode : (endLong s).errcode = s.errcode := rfl
@[simp] theorem endLong_errovf : (endLong s).errovf = s.errovf := rfl
@[simp] theorem endLong_errinfo : (endLong s).errinfo = s.errinfo := rfl
@[simp] theorem endLong_busy : (endLong s).busy = false := rfl
@[simp] theorem endLong_phase : (endLong s).phase = .idle := rfl
@[simp] theorem endLong_cur : (endLong s).cur = s.cur := rfl
@[simp] theorem endLong_rem : (endLong s).rem = s.rem := rfl
@[simp] theorem endLong_lseed : (endLong s).lseed = s.lseed := rfl
@[simp] theorem endLong_mem : (endLong s).mem = s.mem := rfl
@[simp] theorem endLong_inputs : (endLong s).inputs = s.inputs := rfl
@[simp] theorem endLong_response : (endLong s).response = s.response := rfl
@[simp] theorem endLong_faulted : (endLong s).faulted = s.faulted := rfl
@[simp] theorem endLong_hostFaulted : (endLong s).hostFaulted = s.hostFaulted := rfl
@[simp] theorem endLong_bufAddr : (endLong s).bufAddr = s.bufAddr := rfl
@[simp] theorem endLong_bufLen : (endLong s).bufLen = s.bufLen := rfl
@[simp] theorem endLong_dutyBroken : (endLong s).dutyBroken = s.dutyBroken := rfl
@[simp] theorem endLong_draws : (endLong s).draws = s.draws := rfl

end endLong

section latchBuffer

@[simp] theorem latchBuffer_table : (latchBuffer s).table = s.table := rfl
@[simp] theorem latchBuffer_tblValid : (latchBuffer s).tblValid = s.tblValid := rfl
@[simp] theorem latchBuffer_acc : (latchBuffer s).acc = s.acc := rfl
@[simp] theorem latchBuffer_accValid : (latchBuffer s).accValid = s.accValid := rfl
@[simp] theorem latchBuffer_hwAvail : (latchBuffer s).hwAvail = s.hwAvail := rfl
@[simp] theorem latchBuffer_seed : (latchBuffer s).seed = s.seed := rfl
@[simp] theorem latchBuffer_len : (latchBuffer s).len = s.len := rfl
@[simp] theorem latchBuffer_addr : (latchBuffer s).addr = s.addr := rfl
@[simp] theorem latchBuffer_data : (latchBuffer s).data = s.data := rfl
@[simp] theorem latchBuffer_result : (latchBuffer s).result = s.result := rfl
@[simp] theorem latchBuffer_errcode : (latchBuffer s).errcode = s.errcode := rfl
@[simp] theorem latchBuffer_errovf : (latchBuffer s).errovf = s.errovf := rfl
@[simp] theorem latchBuffer_errinfo : (latchBuffer s).errinfo = s.errinfo := rfl
@[simp] theorem latchBuffer_busy : (latchBuffer s).busy = s.busy := rfl
@[simp] theorem latchBuffer_phase : (latchBuffer s).phase = s.phase := rfl
@[simp] theorem latchBuffer_cur : (latchBuffer s).cur = s.addr := rfl
@[simp] theorem latchBuffer_rem : (latchBuffer s).rem = s.len := rfl
@[simp] theorem latchBuffer_lseed : (latchBuffer s).lseed = s.lseed := rfl
@[simp] theorem latchBuffer_mem : (latchBuffer s).mem = s.mem := rfl
@[simp] theorem latchBuffer_inputs : (latchBuffer s).inputs = s.inputs := rfl
@[simp] theorem latchBuffer_response : (latchBuffer s).response = s.response := rfl
@[simp] theorem latchBuffer_faulted : (latchBuffer s).faulted = s.faulted := rfl
@[simp] theorem latchBuffer_hostFaulted : (latchBuffer s).hostFaulted = s.hostFaulted := rfl
@[simp] theorem latchBuffer_bufAddr : (latchBuffer s).bufAddr = s.addr := rfl
@[simp] theorem latchBuffer_bufLen : (latchBuffer s).bufLen = s.len := rfl
@[simp] theorem latchBuffer_dutyBroken : (latchBuffer s).dutyBroken = false := rfl
@[simp] theorem latchBuffer_draws : (latchBuffer s).draws = s.draws := rfl

end latchBuffer

section respond

variable (r : Response)

@[simp] theorem respond_table : (respond r s).table = s.table := rfl
@[simp] theorem respond_tblValid : (respond r s).tblValid = s.tblValid := rfl
@[simp] theorem respond_acc : (respond r s).acc = s.acc := rfl
@[simp] theorem respond_accValid : (respond r s).accValid = s.accValid := rfl
@[simp] theorem respond_hwAvail : (respond r s).hwAvail = s.hwAvail := rfl
@[simp] theorem respond_seed : (respond r s).seed = s.seed := rfl
@[simp] theorem respond_len : (respond r s).len = s.len := rfl
@[simp] theorem respond_addr : (respond r s).addr = s.addr := rfl
@[simp] theorem respond_data : (respond r s).data = s.data := rfl
@[simp] theorem respond_result : (respond r s).result = s.result := rfl
@[simp] theorem respond_errcode : (respond r s).errcode = s.errcode := rfl
@[simp] theorem respond_errovf : (respond r s).errovf = s.errovf := rfl
@[simp] theorem respond_errinfo : (respond r s).errinfo = s.errinfo := rfl
@[simp] theorem respond_busy : (respond r s).busy = s.busy := rfl
@[simp] theorem respond_phase : (respond r s).phase = s.phase := rfl
@[simp] theorem respond_cur : (respond r s).cur = s.cur := rfl
@[simp] theorem respond_rem : (respond r s).rem = s.rem := rfl
@[simp] theorem respond_lseed : (respond r s).lseed = s.lseed := rfl
@[simp] theorem respond_mem : (respond r s).mem = s.mem := rfl
@[simp] theorem respond_inputs : (respond r s).inputs = s.inputs := rfl
@[simp] theorem respond_response : (respond r s).response = some r := rfl
@[simp] theorem respond_faulted : (respond r s).faulted = s.faulted := rfl
@[simp] theorem respond_hostFaulted : (respond r s).hostFaulted = s.hostFaulted := rfl
@[simp] theorem respond_bufAddr : (respond r s).bufAddr = s.bufAddr := rfl
@[simp] theorem respond_bufLen : (respond r s).bufLen = s.bufLen := rfl
@[simp] theorem respond_dutyBroken : (respond r s).dutyBroken = s.dutyBroken := rfl
@[simp] theorem respond_draws : (respond r s).draws = s.draws := rfl

end respond

section hostBusError

@[simp] theorem hostBusError_table : (hostBusError s).table = s.table := rfl
@[simp] theorem hostBusError_tblValid : (hostBusError s).tblValid = s.tblValid := rfl
@[simp] theorem hostBusError_acc : (hostBusError s).acc = s.acc := rfl
@[simp] theorem hostBusError_accValid : (hostBusError s).accValid = s.accValid := rfl
@[simp] theorem hostBusError_hwAvail : (hostBusError s).hwAvail = s.hwAvail := rfl
@[simp] theorem hostBusError_seed : (hostBusError s).seed = s.seed := rfl
@[simp] theorem hostBusError_len : (hostBusError s).len = s.len := rfl
@[simp] theorem hostBusError_addr : (hostBusError s).addr = s.addr := rfl
@[simp] theorem hostBusError_data : (hostBusError s).data = s.data := rfl
@[simp] theorem hostBusError_result : (hostBusError s).result = s.result := rfl
@[simp] theorem hostBusError_errcode : (hostBusError s).errcode = s.errcode := rfl
@[simp] theorem hostBusError_errovf : (hostBusError s).errovf = s.errovf := rfl
@[simp] theorem hostBusError_errinfo : (hostBusError s).errinfo = s.errinfo := rfl
@[simp] theorem hostBusError_busy : (hostBusError s).busy = s.busy := rfl
@[simp] theorem hostBusError_phase : (hostBusError s).phase = s.phase := rfl
@[simp] theorem hostBusError_cur : (hostBusError s).cur = s.cur := rfl
@[simp] theorem hostBusError_rem : (hostBusError s).rem = s.rem := rfl
@[simp] theorem hostBusError_lseed : (hostBusError s).lseed = s.lseed := rfl
@[simp] theorem hostBusError_mem : (hostBusError s).mem = s.mem := rfl
@[simp] theorem hostBusError_inputs : (hostBusError s).inputs = s.inputs := rfl
@[simp] theorem hostBusError_response : (hostBusError s).response = some .busError := rfl
@[simp] theorem hostBusError_faulted : (hostBusError s).faulted = s.faulted := rfl
@[simp] theorem hostBusError_hostFaulted : (hostBusError s).hostFaulted = true := rfl
@[simp] theorem hostBusError_bufAddr : (hostBusError s).bufAddr = s.bufAddr := rfl
@[simp] theorem hostBusError_bufLen : (hostBusError s).bufLen = s.bufLen := rfl
@[simp] theorem hostBusError_dutyBroken : (hostBusError s).dutyBroken = s.dutyBroken := rfl
@[simp] theorem hostBusError_draws : (hostBusError s).draws = s.draws := rfl

end hostBusError

section writeBuffer

variable (a : DWord) (b : Byte)

@[simp] theorem writeBuffer_table : (writeBuffer a b s).table = s.table := rfl
@[simp] theorem writeBuffer_tblValid : (writeBuffer a b s).tblValid = s.tblValid := rfl
@[simp] theorem writeBuffer_acc : (writeBuffer a b s).acc = s.acc := rfl
@[simp] theorem writeBuffer_accValid : (writeBuffer a b s).accValid = s.accValid := rfl
@[simp] theorem writeBuffer_hwAvail : (writeBuffer a b s).hwAvail = s.hwAvail := rfl
@[simp] theorem writeBuffer_seed : (writeBuffer a b s).seed = s.seed := rfl
@[simp] theorem writeBuffer_len : (writeBuffer a b s).len = s.len := rfl
@[simp] theorem writeBuffer_addr : (writeBuffer a b s).addr = s.addr := rfl
@[simp] theorem writeBuffer_data : (writeBuffer a b s).data = s.data := rfl
@[simp] theorem writeBuffer_result : (writeBuffer a b s).result = s.result := rfl
@[simp] theorem writeBuffer_errcode : (writeBuffer a b s).errcode = s.errcode := rfl
@[simp] theorem writeBuffer_errovf : (writeBuffer a b s).errovf = s.errovf := rfl
@[simp] theorem writeBuffer_errinfo : (writeBuffer a b s).errinfo = s.errinfo := rfl
@[simp] theorem writeBuffer_busy : (writeBuffer a b s).busy = s.busy := rfl
@[simp] theorem writeBuffer_phase : (writeBuffer a b s).phase = s.phase := rfl
@[simp] theorem writeBuffer_cur : (writeBuffer a b s).cur = s.cur := rfl
@[simp] theorem writeBuffer_rem : (writeBuffer a b s).rem = s.rem := rfl
@[simp] theorem writeBuffer_lseed : (writeBuffer a b s).lseed = s.lseed := rfl
@[simp] theorem writeBuffer_mem : (writeBuffer a b s).mem = s.mem.write a b := rfl
@[simp] theorem writeBuffer_inputs : (writeBuffer a b s).inputs = s.inputs := rfl
@[simp] theorem writeBuffer_response : (writeBuffer a b s).response = s.response := rfl
@[simp] theorem writeBuffer_faulted : (writeBuffer a b s).faulted = s.faulted := rfl
@[simp] theorem writeBuffer_hostFaulted : (writeBuffer a b s).hostFaulted = s.hostFaulted := rfl
@[simp] theorem writeBuffer_bufAddr : (writeBuffer a b s).bufAddr = s.bufAddr := rfl
@[simp] theorem writeBuffer_bufLen : (writeBuffer a b s).bufLen = s.bufLen := rfl
@[simp] theorem writeBuffer_dutyBroken : (writeBuffer a b s).dutyBroken = (s.dutyBroken || (s.busy && decide (s.phase ≠ .tblgen) && inLatchedBuffer s a)) := rfl
@[simp] theorem writeBuffer_draws : (writeBuffer a b s).draws = s.draws := rfl

end writeBuffer

section applyReset

variable (p : Bool)

@[simp] theorem applyReset_table : (applyReset p s).table = State.reset.table := rfl
@[simp] theorem applyReset_tblValid : (applyReset p s).tblValid = State.reset.tblValid := rfl
@[simp] theorem applyReset_acc : (applyReset p s).acc = State.reset.acc := rfl
@[simp] theorem applyReset_accValid : (applyReset p s).accValid = State.reset.accValid := rfl
@[simp] theorem applyReset_hwAvail : (applyReset p s).hwAvail = p := rfl
@[simp] theorem applyReset_seed : (applyReset p s).seed = State.reset.seed := rfl
@[simp] theorem applyReset_len : (applyReset p s).len = State.reset.len := rfl
@[simp] theorem applyReset_addr : (applyReset p s).addr = State.reset.addr := rfl
@[simp] theorem applyReset_data : (applyReset p s).data = State.reset.data := rfl
@[simp] theorem applyReset_result : (applyReset p s).result = State.reset.result := rfl
@[simp] theorem applyReset_errcode : (applyReset p s).errcode = State.reset.errcode := rfl
@[simp] theorem applyReset_errovf : (applyReset p s).errovf = State.reset.errovf := rfl
@[simp] theorem applyReset_errinfo : (applyReset p s).errinfo = State.reset.errinfo := rfl
@[simp] theorem applyReset_busy : (applyReset p s).busy = State.reset.busy := rfl
@[simp] theorem applyReset_phase : (applyReset p s).phase = State.reset.phase := rfl
@[simp] theorem applyReset_cur : (applyReset p s).cur = State.reset.cur := rfl
@[simp] theorem applyReset_rem : (applyReset p s).rem = State.reset.rem := rfl
@[simp] theorem applyReset_lseed : (applyReset p s).lseed = State.reset.lseed := rfl
@[simp] theorem applyReset_mem : (applyReset p s).mem = s.mem := rfl
@[simp] theorem applyReset_inputs : (applyReset p s).inputs = s.inputs := rfl
@[simp] theorem applyReset_response : (applyReset p s).response = s.response := rfl
@[simp] theorem applyReset_faulted : (applyReset p s).faulted = s.faulted := rfl
@[simp] theorem applyReset_hostFaulted : (applyReset p s).hostFaulted = s.hostFaulted := rfl
@[simp] theorem applyReset_bufAddr : (applyReset p s).bufAddr = State.reset.bufAddr := rfl
@[simp] theorem applyReset_bufLen : (applyReset p s).bufLen = State.reset.bufLen := rfl
@[simp] theorem applyReset_dutyBroken : (applyReset p s).dutyBroken = State.reset.dutyBroken := rfl
@[simp] theorem applyReset_draws : (applyReset p s).draws = s.draws := rfl

end applyReset

section resetMove

variable (p : Bool) (a : Option HostAccess)

@[simp] theorem resetMove_table : (resetMove p a s).table = (applyReset p s).table := by
  unfold resetMove; split <;> (try split) <;> rfl
@[simp] theorem resetMove_tblValid : (resetMove p a s).tblValid = (applyReset p s).tblValid := by
  unfold resetMove; split <;> (try split) <;> rfl
@[simp] theorem resetMove_acc : (resetMove p a s).acc = (applyReset p s).acc := by
  unfold resetMove; split <;> (try split) <;> rfl
@[simp] theorem resetMove_accValid : (resetMove p a s).accValid = (applyReset p s).accValid := by
  unfold resetMove; split <;> (try split) <;> rfl
@[simp] theorem resetMove_hwAvail : (resetMove p a s).hwAvail = (applyReset p s).hwAvail := by
  unfold resetMove; split <;> (try split) <;> rfl
@[simp] theorem resetMove_seed : (resetMove p a s).seed = (applyReset p s).seed := by
  unfold resetMove; split <;> (try split) <;> rfl
@[simp] theorem resetMove_len : (resetMove p a s).len = (applyReset p s).len := by
  unfold resetMove; split <;> (try split) <;> rfl
@[simp] theorem resetMove_addr : (resetMove p a s).addr = (applyReset p s).addr := by
  unfold resetMove; split <;> (try split) <;> rfl
@[simp] theorem resetMove_data : (resetMove p a s).data = (applyReset p s).data := by
  unfold resetMove; split <;> (try split) <;> rfl
@[simp] theorem resetMove_result : (resetMove p a s).result = (applyReset p s).result := by
  unfold resetMove; split <;> (try split) <;> rfl
@[simp] theorem resetMove_errcode : (resetMove p a s).errcode = (applyReset p s).errcode := by
  unfold resetMove; split <;> (try split) <;> rfl
@[simp] theorem resetMove_errovf : (resetMove p a s).errovf = (applyReset p s).errovf := by
  unfold resetMove; split <;> (try split) <;> rfl
@[simp] theorem resetMove_errinfo : (resetMove p a s).errinfo = (applyReset p s).errinfo := by
  unfold resetMove; split <;> (try split) <;> rfl
@[simp] theorem resetMove_busy : (resetMove p a s).busy = (applyReset p s).busy := by
  unfold resetMove; split <;> (try split) <;> rfl
@[simp] theorem resetMove_phase : (resetMove p a s).phase = (applyReset p s).phase := by
  unfold resetMove; split <;> (try split) <;> rfl
@[simp] theorem resetMove_cur : (resetMove p a s).cur = (applyReset p s).cur := by
  unfold resetMove; split <;> (try split) <;> rfl
@[simp] theorem resetMove_rem : (resetMove p a s).rem = (applyReset p s).rem := by
  unfold resetMove; split <;> (try split) <;> rfl
@[simp] theorem resetMove_lseed : (resetMove p a s).lseed = (applyReset p s).lseed := by
  unfold resetMove; split <;> (try split) <;> rfl
@[simp] theorem resetMove_mem : (resetMove p a s).mem = (applyReset p s).mem := by
  unfold resetMove; split <;> (try split) <;> rfl
@[simp] theorem resetMove_inputs : (resetMove p a s).inputs = (applyReset p s).inputs := by
  unfold resetMove; split <;> (try split) <;> rfl
@[simp] theorem resetMove_faulted : (resetMove p a s).faulted = (applyReset p s).faulted := by
  unfold resetMove; split <;> (try split) <;> rfl
@[simp] theorem resetMove_bufAddr : (resetMove p a s).bufAddr = (applyReset p s).bufAddr := by
  unfold resetMove; split <;> (try split) <;> rfl
@[simp] theorem resetMove_bufLen : (resetMove p a s).bufLen = (applyReset p s).bufLen := by
  unfold resetMove; split <;> (try split) <;> rfl
@[simp] theorem resetMove_dutyBroken : (resetMove p a s).dutyBroken = (applyReset p s).dutyBroken := by
  unfold resetMove; split <;> (try split) <;> rfl
@[simp] theorem resetMove_draws : (resetMove p a s).draws = (applyReset p s).draws := by
  unfold resetMove; split <;> (try split) <;> rfl

end resetMove

section recordError

variable (e : ErrCode) (info : DWord)

@[simp] theorem recordError_table : (recordError e info s).table = s.table := by unfold recordError; split <;> rfl
@[simp] theorem recordError_tblValid : (recordError e info s).tblValid = s.tblValid := by unfold recordError; split <;> rfl
@[simp] theorem recordError_acc : (recordError e info s).acc = s.acc := by unfold recordError; split <;> rfl
@[simp] theorem recordError_accValid : (recordError e info s).accValid = s.accValid := by unfold recordError; split <;> rfl
@[simp] theorem recordError_hwAvail : (recordError e info s).hwAvail = s.hwAvail := by unfold recordError; split <;> rfl
@[simp] theorem recordError_seed : (recordError e info s).seed = s.seed := by unfold recordError; split <;> rfl
@[simp] theorem recordError_len : (recordError e info s).len = s.len := by unfold recordError; split <;> rfl
@[simp] theorem recordError_addr : (recordError e info s).addr = s.addr := by unfold recordError; split <;> rfl
@[simp] theorem recordError_data : (recordError e info s).data = s.data := by unfold recordError; split <;> rfl
@[simp] theorem recordError_result : (recordError e info s).result = s.result := by unfold recordError; split <;> rfl
@[simp] theorem recordError_busy : (recordError e info s).busy = s.busy := by unfold recordError; split <;> rfl
@[simp] theorem recordError_phase : (recordError e info s).phase = s.phase := by unfold recordError; split <;> rfl
@[simp] theorem recordError_cur : (recordError e info s).cur = s.cur := by unfold recordError; split <;> rfl
@[simp] theorem recordError_rem : (recordError e info s).rem = s.rem := by unfold recordError; split <;> rfl
@[simp] theorem recordError_lseed : (recordError e info s).lseed = s.lseed := by unfold recordError; split <;> rfl
@[simp] theorem recordError_mem : (recordError e info s).mem = s.mem := by unfold recordError; split <;> rfl
@[simp] theorem recordError_inputs : (recordError e info s).inputs = s.inputs := by unfold recordError; split <;> rfl
@[simp] theorem recordError_response : (recordError e info s).response = s.response := by unfold recordError; split <;> rfl
@[simp] theorem recordError_hostFaulted : (recordError e info s).hostFaulted = s.hostFaulted := by unfold recordError; split <;> rfl
@[simp] theorem recordError_bufAddr : (recordError e info s).bufAddr = s.bufAddr := by unfold recordError; split <;> rfl
@[simp] theorem recordError_bufLen : (recordError e info s).bufLen = s.bufLen := by unfold recordError; split <;> rfl
@[simp] theorem recordError_dutyBroken : (recordError e info s).dutyBroken = s.dutyBroken := by unfold recordError; split <;> rfl
@[simp] theorem recordError_draws : (recordError e info s).draws = s.draws := by unfold recordError; split <;> rfl

end recordError

section deliverResult

variable (v : Word)

@[simp] theorem deliverResult_table : (deliverResult v s).table = s.table := by unfold deliverResult; split <;> rfl
@[simp] theorem deliverResult_tblValid : (deliverResult v s).tblValid = s.tblValid := by unfold deliverResult; split <;> rfl
@[simp] theorem deliverResult_acc : (deliverResult v s).acc = s.acc := by unfold deliverResult; split <;> rfl
@[simp] theorem deliverResult_accValid : (deliverResult v s).accValid = s.accValid := by unfold deliverResult; split <;> rfl
@[simp] theorem deliverResult_hwAvail : (deliverResult v s).hwAvail = s.hwAvail := by unfold deliverResult; split <;> rfl
@[simp] theorem deliverResult_seed : (deliverResult v s).seed = s.seed := by unfold deliverResult; split <;> rfl
@[simp] theorem deliverResult_len : (deliverResult v s).len = s.len := by unfold deliverResult; split <;> rfl
@[simp] theorem deliverResult_addr : (deliverResult v s).addr = s.addr := by unfold deliverResult; split <;> rfl
@[simp] theorem deliverResult_data : (deliverResult v s).data = s.data := by unfold deliverResult; split <;> rfl
@[simp] theorem deliverResult_errcode : (deliverResult v s).errcode = s.errcode := by unfold deliverResult; split <;> rfl
@[simp] theorem deliverResult_errovf : (deliverResult v s).errovf = s.errovf := by unfold deliverResult; split <;> rfl
@[simp] theorem deliverResult_errinfo : (deliverResult v s).errinfo = s.errinfo := by unfold deliverResult; split <;> rfl
@[simp] theorem deliverResult_busy : (deliverResult v s).busy = s.busy := by unfold deliverResult; split <;> rfl
@[simp] theorem deliverResult_phase : (deliverResult v s).phase = s.phase := by unfold deliverResult; split <;> rfl
@[simp] theorem deliverResult_cur : (deliverResult v s).cur = s.cur := by unfold deliverResult; split <;> rfl
@[simp] theorem deliverResult_rem : (deliverResult v s).rem = s.rem := by unfold deliverResult; split <;> rfl
@[simp] theorem deliverResult_lseed : (deliverResult v s).lseed = s.lseed := by unfold deliverResult; split <;> rfl
@[simp] theorem deliverResult_mem : (deliverResult v s).mem = s.mem := by unfold deliverResult; split <;> rfl
@[simp] theorem deliverResult_inputs : (deliverResult v s).inputs = s.inputs := by unfold deliverResult; split <;> rfl
@[simp] theorem deliverResult_response : (deliverResult v s).response = s.response := by unfold deliverResult; split <;> rfl
@[simp] theorem deliverResult_faulted : (deliverResult v s).faulted = s.faulted := by unfold deliverResult; split <;> rfl
@[simp] theorem deliverResult_hostFaulted : (deliverResult v s).hostFaulted = s.hostFaulted := by unfold deliverResult; split <;> rfl
@[simp] theorem deliverResult_bufAddr : (deliverResult v s).bufAddr = s.bufAddr := by unfold deliverResult; split <;> rfl
@[simp] theorem deliverResult_bufLen : (deliverResult v s).bufLen = s.bufLen := by unfold deliverResult; split <;> rfl
@[simp] theorem deliverResult_dutyBroken : (deliverResult v s).dutyBroken = s.dutyBroken := by unfold deliverResult; split <;> rfl

end deliverResult

section abortSoftware

@[simp] theorem abortSoftware_table : (abortSoftware s).table = s.table := by simp [abortSoftware]
@[simp] theorem abortSoftware_tblValid : (abortSoftware s).tblValid = s.tblValid := by simp [abortSoftware]
@[simp] theorem abortSoftware_acc : (abortSoftware s).acc = Config.freeAcc s.draws := rfl
@[simp] theorem abortSoftware_accValid : (abortSoftware s).accValid = false := rfl
@[simp] theorem abortSoftware_hwAvail : (abortSoftware s).hwAvail = s.hwAvail := by simp [abortSoftware]
@[simp] theorem abortSoftware_seed : (abortSoftware s).seed = s.seed := by simp [abortSoftware]
@[simp] theorem abortSoftware_len : (abortSoftware s).len = s.len := by simp [abortSoftware]
@[simp] theorem abortSoftware_addr : (abortSoftware s).addr = s.addr := by simp [abortSoftware]
@[simp] theorem abortSoftware_data : (abortSoftware s).data = s.data := by simp [abortSoftware]
@[simp] theorem abortSoftware_result : (abortSoftware s).result = s.result := by simp [abortSoftware]
@[simp] theorem abortSoftware_busy : (abortSoftware s).busy = false := rfl
@[simp] theorem abortSoftware_phase : (abortSoftware s).phase = .idle := rfl
@[simp] theorem abortSoftware_cur : (abortSoftware s).cur = s.cur := by simp [abortSoftware]
@[simp] theorem abortSoftware_rem : (abortSoftware s).rem = s.rem := by simp [abortSoftware]
@[simp] theorem abortSoftware_lseed : (abortSoftware s).lseed = s.lseed := by simp [abortSoftware]
@[simp] theorem abortSoftware_mem : (abortSoftware s).mem = s.mem := by simp [abortSoftware]
@[simp] theorem abortSoftware_inputs : (abortSoftware s).inputs = s.inputs := by simp [abortSoftware]
@[simp] theorem abortSoftware_response : (abortSoftware s).response = s.response := by simp [abortSoftware]
@[simp] theorem abortSoftware_hostFaulted : (abortSoftware s).hostFaulted = s.hostFaulted := by simp [abortSoftware]
@[simp] theorem abortSoftware_bufAddr : (abortSoftware s).bufAddr = s.bufAddr := by simp [abortSoftware]
@[simp] theorem abortSoftware_bufLen : (abortSoftware s).bufLen = s.bufLen := by simp [abortSoftware]
@[simp] theorem abortSoftware_dutyBroken : (abortSoftware s).dutyBroken = s.dutyBroken := by simp [abortSoftware]
@[simp] theorem abortSoftware_draws : (abortSoftware s).draws = s.draws + 1 := rfl

end abortSoftware

section abortHardware

@[simp] theorem abortHardware_table : (abortHardware s).table = s.table := by simp [abortHardware]
@[simp] theorem abortHardware_tblValid : (abortHardware s).tblValid = s.tblValid := by simp [abortHardware]
@[simp] theorem abortHardware_acc : (abortHardware s).acc = s.acc := by simp [abortHardware]
@[simp] theorem abortHardware_accValid : (abortHardware s).accValid = s.accValid := by simp [abortHardware]
@[simp] theorem abortHardware_hwAvail : (abortHardware s).hwAvail = s.hwAvail := by simp [abortHardware]
@[simp] theorem abortHardware_seed : (abortHardware s).seed = s.seed := by simp [abortHardware]
@[simp] theorem abortHardware_len : (abortHardware s).len = s.len := by simp [abortHardware]
@[simp] theorem abortHardware_addr : (abortHardware s).addr = s.addr := by simp [abortHardware]
@[simp] theorem abortHardware_data : (abortHardware s).data = s.data := by simp [abortHardware]
@[simp] theorem abortHardware_result : (abortHardware s).result = s.result := by simp [abortHardware]
@[simp] theorem abortHardware_busy : (abortHardware s).busy = false := rfl
@[simp] theorem abortHardware_phase : (abortHardware s).phase = .idle := rfl
@[simp] theorem abortHardware_cur : (abortHardware s).cur = s.cur := by simp [abortHardware]
@[simp] theorem abortHardware_rem : (abortHardware s).rem = s.rem := by simp [abortHardware]
@[simp] theorem abortHardware_lseed : (abortHardware s).lseed = s.lseed := by simp [abortHardware]
@[simp] theorem abortHardware_mem : (abortHardware s).mem = s.mem := by simp [abortHardware]
@[simp] theorem abortHardware_inputs : (abortHardware s).inputs = s.inputs := by simp [abortHardware]
@[simp] theorem abortHardware_response : (abortHardware s).response = s.response := by simp [abortHardware]
@[simp] theorem abortHardware_hostFaulted : (abortHardware s).hostFaulted = s.hostFaulted := by simp [abortHardware]
@[simp] theorem abortHardware_bufAddr : (abortHardware s).bufAddr = s.bufAddr := by simp [abortHardware]
@[simp] theorem abortHardware_bufLen : (abortHardware s).bufLen = s.bufLen := by simp [abortHardware]
@[simp] theorem abortHardware_dutyBroken : (abortHardware s).dutyBroken = s.dutyBroken := by simp [abortHardware]
@[simp] theorem abortHardware_draws : (abortHardware s).draws = s.draws + 1 := rfl

end abortHardware

/-- Every RecordError sets the ghost FAULTED (60_exceptions.md R224). -/
@[simp] theorem recordError_faulted (e : ErrCode) (info : DWord) : (recordError e info s).faulted = true := by
  unfold recordError; split <;> rfl

/-- The first error is recorded with its information (60_exceptions.md R224). -/
theorem recordError_of_none {s : State} (h : s.errcode = .none) (e : ErrCode) (info : DWord) :
    recordError e info s = { s with errcode := e, errinfo := info, faulted := true } := by
  simp [recordError, h]

/-- A later error only sets ERROVF (60_exceptions.md R224). -/
theorem recordError_of_some {s : State} (h : s.errcode ≠ .none) (e : ErrCode) (info : DWord) :
    recordError e info s = { s with errovf := true, faulted := true } := by
  simp [recordError, h]

/-- The result of a buffer that was kept is delivered as computed. -/
theorem deliverResult_of_kept {s : State} (h : s.dutyBroken = false) (v : Word) :
    deliverResult v s = { s with result := v } := by
  simp [deliverResult, h]

/-- The result of a buffer that was written is the free value (20_memory.md R77). -/
theorem deliverResult_of_broken {s : State} (h : s.dutyBroken = true) (v : Word) :
    deliverResult v s = { s with result := Config.freeResult s.draws, draws := s.draws + 1 } := by
  simp [deliverResult, h]

end Sys2Proof.Machine
end

