-- ==== Sys2Proof/Laws/Ops.lean ====
section
/-! SUPPORT. One lemma per shared operation that says everything it can do when it answers a next state; later proofs cite
these instead of unfolding the operation. -/

namespace Sys2Proof.Machine
variable {s t : State}

/-- Everything SubmitCommand can do (60_exceptions.md R225). -/
theorem submitCommand_next {w : Word} (h : submitCommand w s = .next t) :
    (s.busy = true ∧ t = raiseForWord .cmdWhileBusy w s) ∨
    (s.busy = false ∧ s.errcode ≠ .none ∧ w = encode .clrerr ∧ t = clearError s) ∨
    (s.busy = false ∧ s.errcode ≠ .none ∧ w ≠ encode .clrerr ∧ t = { s with errovf := true }) ∨
    (s.busy = false ∧ s.errcode = .none ∧ decode w = .error .illegal ∧ t = raiseForWord .illegalCmd w s) ∨
    (s.busy = false ∧ s.errcode = .none ∧ ∃ i, decode w = .ok i ∧ exec i s = .next t) := by
  have hw : encode .clrerr = 0x00000002#32 := by decide
  unfold submitCommand at h
  rw [hw]
  split at h
  · rename_i hb
    exact .inl ⟨hb, (Host.Outcome.next.inj h).symm⟩
  · rename_i hb
    simp only [Bool.not_eq_true] at hb
    split at h
    · rename_i he
      split at h
      · rename_i hw2
        exact .inr (.inl ⟨hb, he, hw2, (Host.Outcome.next.inj h).symm⟩)
      · rename_i hw2
        exact .inr (.inr (.inl ⟨hb, he, hw2, (Host.Outcome.next.inj h).symm⟩))
    · rename_i he
      simp only [ne_eq, not_not] at he
      unfold runWord at h
      split at h
      · rename_i e hd
        exact .inr (.inr (.inr (.inl ⟨hb, he, by cases e; exact hd, (Host.Outcome.next.inj h).symm⟩)))
      · rename_i i hd
        exact .inr (.inr (.inr (.inr ⟨hb, he, i, hd, h⟩)))

/-- Everything a HEAD or TAIL step can do (42_compute_dispatch.md R165, R167, R169). -/
theorem consumeByte_next {norm : DWord → Word → Phase} (h : consumeByte norm s = .next t) :
    s.rem.toNat ≠ 0 ∧
      ((s.mem.read s.cur = none ∧ t = abortSoftware s) ∨
        ∃ b, s.mem.read s.cur = some b ∧
          t = { s with acc := byteStep s.table s.acc b, cur := s.cur + 1#64, rem := s.rem - 1#32,
                       phase := norm (s.cur + 1#64) (s.rem - 1#32) }) := by
  unfold consumeByte at h
  split at h
  · cases h
  · rename_i hr
    refine ⟨hr, ?_⟩
    split at h
    · rename_i hm
      exact .inl ⟨hm, (Host.Outcome.next.inj h).symm⟩
    · rename_i b hm
      exact .inr ⟨b, hm, (Host.Outcome.next.inj h).symm⟩

/-- Everything a BULK step can do (42_compute_dispatch.md R166, R169). -/
theorem bulkStep_next (h : bulkStep s = .next t) :
    s.cur.toNat % 8 = 0 ∧ 8 ≤ s.rem.toNat ∧
      ((s.mem.read8 s.cur = none ∧ t = abortSoftware s) ∨
        ∃ w, s.mem.read8 s.cur = some w ∧
          t = { s with acc := fold8 s.table s.acc w, cur := s.cur + 8#64, rem := s.rem - 8#32,
                       phase := normBulk (s.cur + 8#64) (s.rem - 8#32) }) := by
  unfold bulkStep at h
  split at h
  · cases h
  · split at h
    · cases h
    · rename_i hc hr
      refine ⟨by omega, by omega, ?_⟩
      split at h
      · rename_i hm
        exact .inl ⟨hm, (Host.Outcome.next.inj h).symm⟩
      · rename_i w hm
        exact .inr ⟨w, hm, (Host.Outcome.next.inj h).symm⟩

/-- Everything an engine step can do, by phase (42_compute_dispatch.md R176). -/
theorem engineStep_next (h : engineStep s = .next t) :
    (s.phase = .head ∧ consumeByte normHead s = .next t) ∨
    (s.phase = .bulk ∧ bulkStep s = .next t) ∨
    (s.phase = .tail ∧ consumeByte normTail s = .next t) ∨
    (s.phase = .finish ∧ t = endLong (deliverResult (finish s.acc) s)) ∨
    (s.phase = .tblgen ∧ t = endLong { s with table := genTable, tblValid := true }) ∨
    (s.phase = .hwrun ∧
      ((∃ bs, s.mem.readRange s.cur s.rem.toNat = some bs ∧ t = endLong (deliverResult (crc32cSpec s.lseed bs) s)) ∨
        (s.mem.readRange s.cur s.rem.toNat = none ∧ t = abortHardware s))) := by
  unfold engineStep at h
  split at h <;> rename_i hp
  · cases h
  · exact .inl ⟨hp, h⟩
  · exact .inr (.inl ⟨hp, h⟩)
  · exact .inr (.inr (.inl ⟨hp, h⟩))
  · exact .inr (.inr (.inr (.inl ⟨hp, (Host.Outcome.next.inj h).symm⟩)))
  · exact .inr (.inr (.inr (.inr (.inl ⟨hp, (Host.Outcome.next.inj h).symm⟩))))
  · refine .inr (.inr (.inr (.inr (.inr ⟨hp, ?_⟩))))
    unfold hwrunStep at h
    split at h
    · rename_i bs hb
      exact .inl ⟨bs, hb, (Host.Outcome.next.inj h).symm⟩
    · rename_i hb
      exact .inr ⟨hb, (Host.Outcome.next.inj h).symm⟩

/-- The engine's turn is its step while busy and nothing while idle. -/
theorem engineTurn_next (h : engineTurn s = .next t) : (s.busy = true ∧ engineStep s = .next t) ∨ (s.busy = false ∧ t = s) := by
  unfold engineTurn at h
  split at h
  · rename_i hb; exact .inl ⟨hb, h⟩
  · rename_i hb; exact .inr ⟨by simpa using hb, (Host.Outcome.next.inj h).symm⟩

/-- CMD is at offset 0x008 alone (10_state.md R23). -/
theorem Reg.ofOffset_eq_cmd {off : DWord} (h : Reg.ofOffset off = .cmd) : off = 0x008#64 := by
  unfold Reg.ofOffset at h
  split at h <;> first | cases h | skip
  · rename_i ho
    exact BitVec.eq_of_toNat_eq ho
  · split at h <;> cases h

/-- Everything a host access can do: only a write to CMD reaches beyond the answer and the operand registers
(43_host_access_and_control.md R200-R202). -/
theorem hostAccess_next {a : HostAccess} (h : hostAccess a s = .next t) :
    t = s ∨ t = hostBusError s ∨ (∃ v, t = respond (.value v) s) ∨ t = respond .done s ∨
    (∃ v, t = { respond .done s with seed := v }) ∨ (∃ v, t = { respond .done s with len := v }) ∨
    (∃ v, t = { respond .done s with addr := v }) ∨ (∃ v, t = { respond .done s with data := v }) ∨
    (∃ w, a = ⟨Reg.offset .cmd, .w32, .write w⟩ ∧ submitCommand w (respond .done s) = .next t) := by
  unfold hostAccess at h
  split at h
  · exact .inl (Host.Outcome.next.inj h).symm
  split at h
  · exact .inr (.inl (Host.Outcome.next.inj h).symm)
  rename_i hwin hleg
  split at h
  · split at h
    · exact .inr (.inr (.inl ⟨_, (Host.Outcome.next.inj h).symm⟩))
    · exact .inr (.inl (Host.Outcome.next.inj h).symm)
  · rename_i v hop
    unfold writeRegister at h
    split at h
    · rename_i hoff
      refine .inr (.inr (.inr (.inr (.inr (.inr (.inr (.inr ⟨v, ?_, h⟩)))))))
      obtain ⟨off, width, op⟩ := a
      have ho : off = 0x008#64 := by
        exact Reg.ofOffset_eq_cmd hoff
      simp only [HostAccess.legal, Bool.and_eq_true, decide_eq_true_eq, Bool.not_eq_false] at hleg
      simp_all [Reg.offset]
    · exact .inr (.inr (.inr (.inr (.inl ⟨v, (Host.Outcome.next.inj h).symm⟩))))
    · exact .inr (.inr (.inr (.inr (.inr (.inl ⟨v, (Host.Outcome.next.inj h).symm⟩)))))
    · exact .inr (.inr (.inr (.inr (.inr (.inr (.inl ⟨_, (Host.Outcome.next.inj h).symm⟩))))))
    · exact .inr (.inr (.inr (.inr (.inr (.inr (.inl ⟨_, (Host.Outcome.next.inj h).symm⟩))))))
    · exact .inr (.inr (.inr (.inr (.inr (.inr (.inr (.inl ⟨_, (Host.Outcome.next.inj h).symm⟩)))))))
    · exact .inr (.inr (.inr (.inr (.inr (.inr (.inr (.inl ⟨_, (Host.Outcome.next.inj h).symm⟩)))))))
    all_goals exact .inr (.inr (.inr (.inl (Host.Outcome.next.inj h).symm)))

/-- Everything an instant of reset can do: the reset values, and the port's answer (70_reset_and_hazards.md R260). -/
theorem resetMove_eq (p : Bool) (a : Option HostAccess) (s : State) :
    ∃ r f, resetMove p a s = { applyReset p s with response := r, hostFaulted := f } := by
  unfold resetMove
  split <;> (try split) <;> exact ⟨_, _, rfl⟩

/-- What the host owes after one step more (43_host_access_and_control.md R207). -/
theorem owesPoll_succ {n : Nat} {owed : Bool} (h : step s = .next t) :
    owesPoll (n + 1) owed s = owesPoll n (s.submitsLong || (owed && !readsIdle s t)) t := by
  simp only [owesPoll, h]

/-- Everything one step can do: the next move of the queue. -/
theorem step_next (h : step s = .next t) :
    (s.nextIsEngine = true ∧ engineTurn s.popped = .next t) ∨
    (∃ a, s.inputs.head? = some (.host a) ∧ hostAccess a s.popped = .next t) ∨
    (s.inputs.head? = some .wait ∧ t = waitPoll s.popped) ∨
    (∃ a b, s.inputs.head? = some (.bufferWrite a b) ∧ t = writeBuffer a b s.popped) ∨
    (∃ p a, s.inputs.head? = some (.reset p a) ∧ t = resetMove p a s.popped) := by
  unfold step at h
  unfold State.popped State.nextIsEngine
  cases hi : s.inputs with
  | nil =>
    rw [hi] at h
    refine .inl ⟨rfl, ?_⟩
    have : { s with inputs := ([] : List Input).tail } = s := by cases s; simp_all
    rw [this]; exact h
  | cons i rest =>
    rw [hi] at h
    cases i with
    | host a => exact .inr (.inl ⟨a, rfl, h⟩)
    | wait => exact .inr (.inr (.inl ⟨rfl, (Host.Outcome.next.inj h).symm⟩))
    | engine => exact .inl ⟨rfl, h⟩
    | bufferWrite a b => exact .inr (.inr (.inr (.inl ⟨a, b, rfl, (Host.Outcome.next.inj h).symm⟩)))
    | reset p a => exact .inr (.inr (.inr (.inr ⟨p, a, rfl, (Host.Outcome.next.inj h).symm⟩)))

end Sys2Proof.Machine
end

