-- ==== Sys2Proof/Laws/PerInstr.lean ====
section
/-! SUPPORT. Statements for all instructions, one lemma per constructor. Family Encoding: the word of an instruction holds its
fields, and they pass every check of the format (30_encoding.md R90, R95). -/

namespace Sys2Proof.Laws.Encoding

/-- The word's fields are the instruction's, and they form a legal command. -/
def Statement (i : Instr) : Prop := Cmd32.ofWord (encode i) = i.fields ∧ i.fields.wellFormed = true

theorem tblgen : Statement .tblgen := ⟨by decide, by decide⟩
theorem clrerr : Statement .clrerr := ⟨by decide, by decide⟩
theorem init : Statement .init := ⟨by decide, by decide⟩
theorem byte : Statement .byte := ⟨by decide, by decide⟩
theorem fold8 : Statement .fold8 := ⟨by decide, by decide⟩
theorem final : Statement .final := ⟨by decide, by decide⟩
theorem computeSw : Statement .computeSw := ⟨by decide, by decide⟩
theorem computeHw : Statement .computeHw := ⟨by decide, by decide⟩

end Sys2Proof.Laws.Encoding
end

