-- ==== Sys2Proof/Tests/Slice0.lean ====
section
/-! SUPPORT. Tests: the expected values are those of 95_test_vectors.md and of the rules' own examples. For every statement with
hypotheses, a witness that they can be met together, one for each clause. -/

namespace Sys2Proof.Machine

set_option Elab.async false

/-! ## Helpers -/

/-- The outcome is a next state of which p holds. -/
def nextIs (r : Result) (p : State → Bool) : Bool :=
  match r with
  | .next t => p t
  | .fault _ => false
  | .refused _ => false

theorem next_of_nextIs {r : Result} {p : State → Bool} (h : nextIs r p = true) : ∃ t, r = .next t ∧ p t = true := by
  cases r with
  | next t => exact ⟨t, rfl, h⟩
  | fault _ => simp [nextIs] at h
  | refused _ => simp [nextIs] at h

/-- The ASCII bytes "123456789". -/
def digits : List Byte := [0x31, 0x32, 0x33, 0x34, 0x35, 0x36, 0x37, 0x38, 0x39]

/-- "123456789" at 0x1000, and nothing else readable. -/
def digitsMem : Memory :=
  ⟨(List.range 9).map fun k => (0x1000 + k, 0x31#8 + BitVec.ofNat 8 k), [⟨0x1000, 0x1009⟩]⟩

/-- Reset with HW_PRESENT = 0. -/
def bare : State := { State.reset with hwAvail := false }

/-- After BOOT and INIT with SEED = 0, the buffer "123456789" at 0x1000 set up, HW_PRESENT = 1. -/
def ready : State :=
  { bare with
    hwAvail := true, table := genTable, tblValid := true, acc := 0xFFFFFFFF#64, accValid := true, mem := digitsMem
    addr := 0x1000#64, len := 9#32 }

/-- ready with a COMPUTE of 9 bytes at 0x1000 running, at the given point. -/
def running (p : Phase) (cur : DWord) (rem : Word) : State :=
  { ready with busy := true, phase := p, cur := cur, rem := rem, bufAddr := 0x1000#64, bufLen := 9#32 }

/-- A BULK step over "12345678". -/
def atBulk : State := running .bulk 0x1000#64 9#32
/-- A TAIL step over "9". -/
def atTail : State := running .tail 0x1008#64 1#32
/-- The FINISH step after "123456789". -/
def atFinish : State := { running .finish 0x1009#64 0#32 with acc := 0x1CF96D7C#64 }
/-- The HWRUN step over "123456789". -/
def atHwrun : State := running .hwrun 0x1000#64 9#32
/-- The TBLGEN step. -/
def atTblgen : State := { bare with busy := true, phase := .tblgen }
/-- A HEAD step over "2" of the buffer [0x1001, 0x100A), whose last byte is refused. -/
def atHead : State := { running .head 0x1001#64 9#32 with bufAddr := 0x1001#64 }
/-- ready with an error recorded. -/
def failed : State := { ready with errcode := .range, errinfo := 0x20#64, faulted := true }
/-- A BULK step whose byte 0x1003 is refused, with an error already recorded. -/
def brokenBulk : State :=
  { atBulk with mem := { digitsMem with admitted := [⟨0x1000, 0x1003⟩, ⟨0x1004, 0x1009⟩] }, errcode := .cmdWhileBusy, errinfo := 0x10#64, faulted := true }

/-- An HWRUN step whose last byte is refused. -/
def refusedHwrun : State := { atHwrun with mem := { digitsMem with admitted := [⟨0x1000, 0x1008⟩] } }
/-- A HEAD step whose byte is refused. -/
def refusedHead : State := { atHead with mem := { digitsMem with admitted := [] } }

theorem inv_bare : Inv bare := by
  refine ⟨⟨?_, ?_, ?_, ?_, ?_, ?_⟩, fun h => absurd h (by decide), ?_, ?_, ?_, ?_, ?_, ?_⟩ <;> decide +kernel
theorem inv_ready : Inv ready := by
  refine ⟨⟨?_, ?_, ?_, ?_, ?_, ?_⟩, fun _ => rfl, ?_, ?_, ?_, ?_, ?_, ?_⟩ <;> decide +kernel
theorem inv_atBulk : Inv atBulk := by
  refine ⟨⟨?_, ?_, ?_, ?_, ?_, ?_⟩, fun _ => rfl, ?_, ?_, ?_, ?_, ?_, ?_⟩ <;> decide +kernel
theorem inv_atTail : Inv atTail := by
  refine ⟨⟨?_, ?_, ?_, ?_, ?_, ?_⟩, fun _ => rfl, ?_, ?_, ?_, ?_, ?_, ?_⟩ <;> decide +kernel
theorem inv_atHead : Inv atHead := by
  refine ⟨⟨?_, ?_, ?_, ?_, ?_, ?_⟩, fun _ => rfl, ?_, ?_, ?_, ?_, ?_, ?_⟩ <;> decide +kernel
theorem inv_refusedHead : Inv refusedHead := by
  refine ⟨⟨?_, ?_, ?_, ?_, ?_, ?_⟩, fun _ => rfl, ?_, ?_, ?_, ?_, ?_, ?_⟩ <;> decide +kernel
theorem inv_brokenBulk : Inv brokenBulk := by
  refine ⟨⟨?_, ?_, ?_, ?_, ?_, ?_⟩, fun _ => rfl, ?_, ?_, ?_, ?_, ?_, ?_⟩ <;> decide +kernel

/-- Inv says nothing of the queue. -/
theorem inv_withInputs {s : State} (h : Inv s) (is : List Input) : Inv { s with inputs := is } :=
  ⟨⟨h.sequencer.accHigh, h.sequencer.busyIff, h.sequencer.software, h.sequencer.bulk, h.sequencer.tail, h.sequencer.finish⟩,
    h.table, h.noError, h.ghost, h.head, h.hwrun, h.buffer, h.memory⟩

/-- Inv says nothing of the operand registers. -/
theorem inv_withOperands {s : State} (h : Inv s) (seed len : Word) (addr data : DWord) :
    Inv { s with seed := seed, len := len, addr := addr, data := data } :=
  ⟨⟨h.sequencer.accHigh, h.sequencer.busyIff, h.sequencer.software, h.sequencer.bulk, h.sequencer.tail, h.sequencer.finish⟩,
    h.table, h.noError, h.ghost, h.head, h.hwrun, h.buffer, h.memory⟩

/-- Inv asks of the accumulator only that its upper half is 0. -/
theorem inv_withAcc {s : State} (h : Inv s) (acc : DWord) (ha : highHalf acc = 0#32) : Inv { s with acc := acc } :=
  ⟨⟨fun _ => ha, h.sequencer.busyIff, h.sequencer.software, h.sequencer.bulk, h.sequencer.tail, h.sequencer.finish⟩,
    h.table, h.noError, h.ghost, h.head, h.hwrun, h.buffer, h.memory⟩

/-! ## WellFormed: an ill-formed term for each check (R95) -/

theorem test_wellFormed_opAssigned : (Cmd32.mk 0x21#8 false 0#23).wellFormed = false := by decide
theorem test_wellFormed_hwLegal : (Cmd32.mk 0x01#8 true 0#23).wellFormed = false := by decide
theorem test_wellFormed_rsvClear : (Cmd32.mk 0x20#8 false 1#23).wellFormed = false := by decide

/-! ## Decoding: every row's word from the fields RSV (23 bits), HW (1 bit), OP (8 bits) of R90 and R93 -/

theorem test_decode_tblgen : decode (0b00000000000000000000000#23 ++ 0b0#1 ++ 0b00000001#8) = .ok .tblgen := rfl
theorem test_decode_clrerr : decode (0b00000000000000000000000#23 ++ 0b0#1 ++ 0b00000010#8) = .ok .clrerr := rfl
theorem test_decode_init : decode (0b00000000000000000000000#23 ++ 0b0#1 ++ 0b00010000#8) = .ok .init := rfl
theorem test_decode_byte : decode (0b00000000000000000000000#23 ++ 0b0#1 ++ 0b00010001#8) = .ok .byte := rfl
theorem test_decode_fold8 : decode (0b00000000000000000000000#23 ++ 0b0#1 ++ 0b00010010#8) = .ok .fold8 := rfl
theorem test_decode_final : decode (0b00000000000000000000000#23 ++ 0b0#1 ++ 0b00010011#8) = .ok .final := rfl
theorem test_decode_computeSw : decode (0b00000000000000000000000#23 ++ 0b0#1 ++ 0b00100000#8) = .ok .computeSw := rfl
theorem test_decode_computeHw : decode (0b00000000000000000000000#23 ++ 0b1#1 ++ 0b00100000#8) = .ok .computeHw := rfl

/-- V90, V92-V96: illegal words. -/
theorem test_decode_illegal :
    [0x00000000, 0x00000220, 0x80000010, 0x00000021, 0x00000101, 0xFFFFFFFF].map (decodeTableWord 32) =
      List.replicate 6 none := by decide +kernel

/-- Every table row: the decoder gives it. -/
theorem test_decodeTableWord :
    [0x001, 0x002, 0x010, 0x011, 0x012, 0x013, 0x020, 0x120].map (decodeTableWord 32) =
      [.tblgen, .clrerr, .init, .byte, .fold8, .final, .computeSw, .computeHw].map some := by decide +kernel

/-! ## Each instruction, one step from a small state -/

/-- 2.1: TBLGEN issue gives STATUS 0x00050001. -/
theorem test_tblgen_issue : nextIs (step (bare.withFetchWord 32 0x1)) (fun t => statusWord t == 0x00050001#32) = true := by
  decide +kernel
/-- 2.1: its engine step gives STATUS 0x00000002; V1, V8: entries. -/
theorem test_tblgen_step :
    nextIs (step atTblgen) (fun t => statusWord t == 0x00000002#32 && entry t.table 0#3 0x01#8 == 0xF26B8303#32 &&
      entry t.table 7#3 0xFF#8 == 0x1F1530A5#32) = true := by decide +kernel
/-- R204's example: STATUS 0x00000300 becomes 0. -/
theorem test_clrerr :
    nextIs (step ({ bare with errcode := .tableNotReady, errinfo := 0x20#64 }.withFetchWord 32 0x2))
      (fun t => statusWord t == 0#32 && t.errinfo == 0#64) = true := by decide +kernel
/-- V11, and V10's STATUS before TBLGEN. -/
theorem test_init :
    nextIs (step ({ bare with seed := 0x12345678#32 }.withFetchWord 32 0x10))
      (fun t => t.acc == 0xEDCBA987#64 && statusWord t == 0x00000004#32) = true := by decide +kernel
/-- V25: the bits of DATA_LO above 7 are ignored. -/
theorem test_byte :
    nextIs (step ({ ready with data := 0xFFFFFF31#64 }.withFetchWord 32 0x11)) (fun t => t.acc == 0x6F0A661C#64) = true := by
  decide +kernel
/-- V22: the table is checked first. -/
theorem test_byte_tableNotReady :
    nextIs (step (bare.withFetchWord 32 0x11))
      (fun t => t.errcode == .tableNotReady && t.errinfo == 0x11#64 && t.acc == 0#64) = true := by decide +kernel
/-- V31: a fold with every lane different. -/
theorem test_fold8 :
    nextIs (step ({ ready with acc := 0x12345678#64, data := 0x0123456789ABCDEF#64 }.withFetchWord 32 0x12))
      (fun t => t.acc == 0xA3D207BE#64) = true := by decide +kernel
/-- V36. -/
theorem test_fold8_accNotValid :
    nextIs (step ({ ready with accValid := false }.withFetchWord 32 0x12))
      (fun t => t.errcode == .accNotValid && t.errinfo == 0x12#64) = true := by decide +kernel
/-- V37. -/
theorem test_final :
    nextIs (step ({ ready with acc := 0x1CF96D7C#64 }.withFetchWord 32 0x13)) (fun t => t.result == 0xE3069283#32) = true := by
  decide +kernel
/-- V42. -/
theorem test_final_accNotValid :
    nextIs (step (bare.withFetchWord 32 0x13)) (fun t => t.errcode == .accNotValid && t.errinfo == 0x13#64) = true := by
  decide +kernel
/-- P1 line 8 (with HW_PRESENT = 1, so STATUS bit 3 is set). -/
theorem test_computeSw_issue :
    nextIs (step (ready.withFetchWord 32 0x20))
      (fun t => statusWord t == 0x0002000F#32 && t.cur == 0x1000#64 && t.rem == 9#32) = true := by decide +kernel
/-- V82: RANGE is checked before the table. -/
theorem test_computeSw_range :
    nextIs (step ({ bare with addr := 0xFFFFFFFFFFFFFFFC#64, len := 5#32 }.withFetchWord 32 0x20))
      (fun t => t.errcode == .range && t.errinfo == 0x20#64) = true := by decide +kernel
/-- V89: the hardware path needs no table. -/
theorem test_computeHw_issue :
    nextIs (step ({ bare with hwAvail := true, len := 9#32 }.withFetchWord 32 0x120))
      (fun t => statusWord t == 0x00060009#32) = true := by decide +kernel
/-- V87: HW_UNAVAILABLE even when LEN = 0. -/
theorem test_computeHw_unavailable :
    nextIs (step (bare.withFetchWord 32 0x120)) (fun t => statusWord t == 0x00000500#32 && t.errinfo == 0x120#64) = true := by
  decide +kernel

/-! ## The engine and the host's port -/

/-- P1 line 9, the BULK step. -/
theorem test_bulk_step :
    nextIs (step atBulk) (fun t => t.acc == 0x9F787F65#64 && t.cur == 0x1008#64 && t.rem == 1#32 && t.phase == .tail) = true := by
  decide +kernel
/-- P1 line 9, the TAIL step. -/
theorem test_tail_step :
    nextIs (step { atTail with acc := 0x9F787F65#64 }) (fun t => t.acc == 0x1CF96D7C#64 && t.phase == .finish) = true := by
  decide +kernel
/-- P1 line 9, the FINISH step. -/
theorem test_finish_step :
    nextIs (step atFinish) (fun t => t.result == 0xE3069283#32 && t.busy == false && t.phase == .idle) = true := by
  decide +kernel
/-- P5 line 2, the HWRUN step. -/
theorem test_hwrun_step : nextIs (step atHwrun) (fun t => t.result == 0xE3069283#32 && t.busy == false) = true := by
  decide +kernel
/-- V114: a refused BULK read reports its first address; the first error is kept. -/
theorem test_bulk_refused :
    nextIs (step { brokenBulk with errcode := .none })
      (fun t => t.errcode == .busError && t.errinfo == 0x1000#64 && t.accValid == false && t.busy == false) = true := by
  decide +kernel
/-- V116: the hardware path reports one of the two refused addresses. -/
theorem test_refused_addresses :
    Memory.refused { digitsMem with admitted := [⟨0x1000, 0x1004⟩, ⟨0x1005, 0x1006⟩, ⟨0x1007, 0x1009⟩] } 0x1000#64 9 = [0x1004#64, 0x1006#64] := by decide +kernel
/-- V112: the last entry of the TABLE window. -/
theorem test_read_table :
    nextIs (step { ready with inputs := [.host ⟨0x2FFC#64, .w32, .read⟩] })
      (fun t => t.response == some (.value 0x1F1530A5#32)) = true := by decide +kernel
/-- V107: a bus error, nothing recorded. -/
theorem test_read_table_busError :
    nextIs (step { bare with inputs := [.host ⟨0x1000#64, .w32, .read⟩] })
      (fun t => t.response == some .busError && t.errcode == .none) = true := by decide +kernel
/-- V101: CLRERR while busy clears nothing. -/
theorem test_clrerr_while_busy :
    nextIs (step (atBulk.withFetchWord 32 0x2)) (fun t => t.errcode == .cmdWhileBusy && t.errinfo == 0x2#64 && t.busy) = true := by
  decide +kernel
/-- The expansion of CRCSW (R99), its last two operations. -/
theorem test_expand_crcsw :
    ((Asm.crcsw 0#32 0x1000#64 9#32).expand.drop 4) = [inputCmd .computeSw, .wait, inputRd .result] := by decide +kernel

/-! ## Witnesses: the hypotheses of each statement are met together; one part for each clause, in the statement's order -/

theorem witness_DecodeIsExactMatchAfterAcceptance :
    ((∀ i, decode 0#32 ≠ .ok i) ∧ ∃ i, decode 0x120#32 = .ok i) ∧ atBulk.busy = true ∧
      (failed.busy = false ∧ failed.errcode ≠ .none ∧ 0x3#32 ≠ 0x00000002#32) :=
  ⟨⟨fun _ h => (nomatch h), .computeHw, rfl⟩, by decide, by decide⟩

/-- OP unassigned, RSV set, HW set with OP = 0x01. -/
theorem witness_IllegalWordsRaiseIllegalCmd :
    ([0x0#32, 0x220#32, 0x101#32].all fun w => (bare.withFetchWord 32 w.toNat).nextIsCommand w) = true ∧
      bare.busy = false ∧ bare.errcode = .none ∧
      decode 0x0#32 = .error .illegal ∧ decode 0x220#32 = .error .illegal ∧ decode 0x101#32 = .error .illegal :=
  ⟨by decide +kernel, by decide, by decide, rfl, rfl, rfl⟩

theorem witness_DecodeAndEncodeAgree :
    (∀ i : Instr, i.wellFormed = true) ∧ decode 0x00000001#32 = .ok .tblgen ∧ decode 0x00000120#32 = .ok .computeHw :=
  ⟨fun i => by cases i <;> rfl, rfl, rfl⟩

theorem witness_StepRunsDecodedCommand :
    ready.busy = false ∧ ready.errcode = .none ∧ decode 0x12#32 = .ok .fold8 ∧
      (ready.withFetchWord 32 0x12).nextIsCommand 0x12#32 = true := ⟨by decide, by decide, rfl, by decide +kernel⟩

theorem witness_SubmitCommandHandlesEveryWord :
    ((atBulk.withFetchWord 32 0x10).nextIsCommand 0x10#32 = true ∧ atBulk.busy = true) ∧
    ((failed.withFetchWord 32 0x2).nextIsCommand 0x2#32 = true ∧ failed.busy = false ∧ failed.errcode ≠ .none) ∧
    ((failed.withFetchWord 32 0x1).nextIsCommand 0x1#32 = true ∧ 0x1#32 ≠ 0x00000002#32) ∧
    ((ready.withFetchWord 32 0x0).nextIsCommand 0x0#32 = true ∧ ready.busy = false ∧ ready.errcode = .none ∧
      decode 0x0#32 = .error .illegal) ∧
    ((ready.withFetchWord 32 0x13).nextIsCommand 0x13#32 = true ∧ decode 0x13#32 = .ok .final) :=
  ⟨by decide +kernel, by decide +kernel, by decide +kernel,
    ⟨by decide +kernel, by decide, by decide, rfl⟩, by decide +kernel, rfl⟩

theorem witness_GeneratedTableFollowsTheAlgorithm : 1#3 ≠ 0#3 ∧ 7#3 ≠ 0#3 := by decide

theorem witness_TblgenBuildsTheTable :
    atTblgen.nextIsEngine = true ∧ atTblgen.busy = true ∧ atTblgen.phase = .tblgen := by decide

theorem witness_TableIsConstantOnceValid :
    Inv ready ∧ ready.tblValid = true ∧ ready.nextIsReset = false ∧ ∃ t, step ready = .next t :=
  ⟨inv_ready, by decide, by decide, _, rfl⟩

theorem witness_InitEntersComplementedDomain :
    { ready with seed := 0xFFFFFFFF#32 }.seed = 0xFFFFFFFF#32 ∧ ready.seed = 0x00000000#32 ∧
      { ready with seed := 0x12345678#32 }.seed = 0x12345678#32 := by decide

theorem witness_ByteReducesOneByte :
    bare.tblValid = false ∧ (ready.tblValid = true ∧ { ready with accValid := false }.accValid = false) ∧
    (Inv { { ready with data := 0#64 } with acc := 0#64 } ∧ ready.tblValid = true ∧ ready.accValid = true) ∧
    (Inv { ready with data := 0xFF#64 } ∧ { ready with data := 0xFF#64 }.data.extractLsb' 0 8 = 0xFF#8 ∧
      ready.acc = 0xFFFFFFFF#64) ∧
    (Inv { ready with data := 0x31#64 } ∧ { ready with data := 0x31#64 }.data.extractLsb' 0 8 = 0x31#8) :=
  ⟨by decide, by decide, ⟨inv_withAcc inv_ready _ (by decide), by decide, by decide⟩,
    ⟨inv_withOperands inv_ready _ _ _ 0xFF#64, by decide, by decide⟩, inv_withOperands inv_ready _ _ _ 0x31#64, by decide⟩

theorem witness_Fold8ReducesEightBytes :
    bare.tblValid = false ∧ (ready.tblValid = true ∧ { ready with accValid := false }.accValid = false) ∧
    (ready.accValid = true ∧ Inv { ready with data := 0xFFFFFFFF#64 } ∧
      0xFFFFFFFF#64 = (ready.acc.extractLsb' 0 32).setWidth 64) ∧
    (∀ d : DWord, Inv { { ready with data := d } with acc := 0#64 } ∧ Inv { ready with data := d }) :=
  ⟨by decide, by decide, ⟨by decide, inv_withOperands inv_ready _ _ _ 0xFFFFFFFF#64, by decide⟩,
    fun d => ⟨inv_withAcc (inv_withOperands inv_ready _ _ _ d) _ (by decide), inv_withOperands inv_ready _ _ _ d⟩⟩

theorem witness_FinalExitsComplementedDomain :
    bare.accValid = false ∧ ready.accValid = true ∧ (∃ t, exec .final ready = .next t) ∧
      (atFinish.accValid = true ∧ atFinish.acc = 0x1CF96D7C#64) :=
  ⟨by decide, by decide, ⟨_, rfl⟩, by decide⟩

theorem witness_ByteStepIsBitwiseReduction : highHalf 0xFFFFFFFF#64 = 0#32 := by decide

theorem witness_FoldEqualsEightByteSteps : (0xFFFFFFFF#64).toNat < 2 ^ 32 := by decide

/-- P2: FOLD8 of "12345678", then BYTE of "9". -/
theorem witness_StreamMatchesReference :
    let ops := [StreamOp.word 0x3837363534333231#64, .byte 0x39#32]
    let s := { ready with inputs := streamAccesses 0#32 ops ++ [] }
    Inv s ∧ s.tblValid = true ∧ s.busy = false ∧ s.errcode = .none ∧ ops.flatMap StreamOp.bytes = digits :=
  ⟨inv_withInputs inv_ready _, by decide, by decide, by decide, by decide +kernel⟩

theorem witness_SoftwareIssueFollowsItsChecks :
    (2 ^ 64 < { ready with addr := 0xFFFFFFFFFFFFFFFF#64, len := 2#32 }.addr.toNat + (2#32).toNat) ∧
    ((0xFFFFFFFFFFFFFFFF#64).toNat + (0#32).toNat ≤ 2 ^ 64) ∧
    ((0xFFFFFFFFFFFFFFFF#64).toNat + (1#32).toNat ≤ 2 ^ 64 ∧ 1#32 ≠ 0#32 ∧ bare.tblValid = false) ∧
    (ready.addr.toNat + ready.len.toNat ≤ 2 ^ 64 ∧ ready.len ≠ 0#32 ∧ ready.tblValid = true) := by decide

theorem witness_HardwareIssueFollowsItsChecks :
    bare.hwAvail = false ∧ (ready.hwAvail = true ∧ 2 ^ 64 < (0xFFFFFFFFFFFFFFFF#64).toNat + (2#32).toNat) ∧
    ((0xFFFFFFFFFFFFFFFF#64).toNat + (0#32).toNat ≤ 2 ^ 64) ∧
    (ready.addr.toNat + ready.len.toNat ≤ 2 ^ 64 ∧ ready.len ≠ 0#32) := by decide

theorem witness_EmptyBufferReturnsTheSeed :
    { ready with len := 0#32 }.len = 0#32 ∧ { ready with len := 0#32 }.hwAvail = true := by decide

theorem witness_PhaseNormalisation :
    (1#32 ≠ 0#32 ∧ (1#64).toNat % 8 ≠ 0) ∧ (7#32 ≠ 0#32 ∧ (8#64).toNat % 8 = 0) ∧ 8 ≤ (8#32).toNat ∧ (7#32).toNat < 8 ∧
      0 < (1#32).toNat := by decide

theorem witness_HeadAndTailConsumeOneByte :
    (Inv atHead ∧ atHead.nextIsEngine = true ∧ atHead.busy = true ∧ atHead.mem.read atHead.cur = some 0x32#8 ∧
      atHead.phase = .head) ∧
    (Inv atTail ∧ atTail.nextIsEngine = true ∧ atTail.busy = true ∧ atTail.mem.read atTail.cur = some 0x39#8 ∧
      atTail.phase = .tail) :=
  ⟨⟨inv_atHead, by decide +kernel⟩, inv_atTail, by decide +kernel⟩

theorem holds_digits : digitsMem.holds 0x1000#64 digits := by
  have h : ∀ k < 9, Memory.read digitsMem (0x1000#64 + BitVec.ofNat 64 k) = digits[k]? := by decide +kernel
  exact h

theorem holds_bulk : digitsMem.holds 0x1000#64 [0x31, 0x32, 0x33, 0x34, 0x35, 0x36, 0x37, 0x38] := by
  have h : ∀ k < 8, Memory.read digitsMem (0x1000#64 + BitVec.ofNat 64 k) =
    ([0x31, 0x32, 0x33, 0x34, 0x35, 0x36, 0x37, 0x38] : List Byte)[k]? := by decide +kernel
  exact h

theorem witness_BulkFoldsEightBytes :
    Inv atBulk ∧ atBulk.nextIsEngine = true ∧ atBulk.busy = true ∧ atBulk.phase = .bulk ∧
      atBulk.mem.holds atBulk.cur [0x31, 0x32, 0x33, 0x34, 0x35, 0x36, 0x37, 0x38] :=
  ⟨inv_atBulk, by decide, by decide, by decide, holds_bulk⟩

theorem witness_WideReadIsLittleEndian :
    digitsMem.holds 0x1000#64 [0x31, 0x32, 0x33, 0x34, 0x35, 0x36, 0x37, 0x38] ∧
      Memory.read8 digitsMem 0x1000#64 = some 0x3837363534333231#64 := ⟨holds_bulk, by decide +kernel⟩

theorem witness_RefusedReadAbortsSoftwarePath :
    (Inv refusedHead ∧ refusedHead.nextIsEngine = true ∧ refusedHead.busy = true ∧ refusedHead.phase = .head ∧
      refusedHead.mem.readable refusedHead.cur = false ∧ refusedHead.errcode = .none) ∧
    (Inv brokenBulk ∧ brokenBulk.nextIsEngine = true ∧ brokenBulk.busy = true ∧ brokenBulk.phase = .bulk ∧
      brokenBulk.errcode ≠ .none ∧ ∃ k, k < 8 ∧ brokenBulk.mem.readable (brokenBulk.cur + BitVec.ofNat 64 k) = false) :=
  ⟨⟨inv_refusedHead, by decide, by decide, by decide, by decide, by decide⟩,
    inv_brokenBulk, by decide, by decide, by decide, by decide, 3, by decide +kernel⟩

theorem witness_FinishDeliversTheResult :
    atFinish.nextIsEngine = true ∧ atFinish.busy = true ∧ atFinish.phase = .finish ∧ atFinish.dutyBroken = false := by decide

theorem witness_HardwareStepMeetsItsContract :
    (atHwrun.nextIsEngine = true ∧ atHwrun.busy = true ∧ atHwrun.phase = .hwrun ∧ digits.length = atHwrun.rem.toNat ∧
      atHwrun.mem.holds atHwrun.cur digits ∧ atHwrun.dutyBroken = false) ∧
    (∃ k, k < refusedHwrun.rem.toNat ∧ refusedHwrun.mem.readable (refusedHwrun.cur + BitVec.ofNat 64 k) = false ∧
      refusedHwrun.errcode = .none) :=
  ⟨⟨by decide, by decide, by decide, by decide, holds_digits, by decide⟩, 8, by decide⟩

theorem witness_OperandsAreLatchedAtIssue :
    (atFinish.busy = true ∧ ∃ t, engineTurn atFinish = .next t) ∧
    ∀ r ∈ [Reg.seed, .len, .addrLo, .addrHi], { atBulk with inputs := [inputWr r 7#32] }.inputs = inputWr r 7#32 :: [] :=
  ⟨⟨by decide, _, rfl⟩, fun _ _ => rfl⟩

theorem witness_RunningCommandIgnoresTheErrorState :
    ((atBulk.withFetchWord 32 0x10).busy = true ∧ (atBulk.withFetchWord 32 0x10).nextIsCommand 0x10#32 = true) ∧
    (atFinish.busy = true ∧ ∃ t, engineTurn atFinish = .next t) ∧
    (refusedHead.busy = true ∧ refusedHead.errcode = .none ∧ ∃ t, engineTurn refusedHead = .next t ∧ t.errcode = .busError) ∧
    (brokenBulk.busy = true ∧ brokenBulk.errcode ≠ .none ∧ ∃ t, engineTurn brokenBulk = .next t) :=
  ⟨by decide +kernel, ⟨by decide, _, rfl⟩, ⟨by decide, by decide, _, rfl, rfl⟩, by decide, by decide,
    (next_of_nextIs (p := fun _ => true) (by decide +kernel)).imp fun _ h => h.1⟩

theorem endsIn_of {n : Nat} {s : State}
    (h : (nextIs (runSteps n s) (fun t => !t.busy) && (List.range n).all fun m => nextIs (runSteps m s) (·.busy)) = true) :
    ∃ u, endsIn n s u := by
  simp only [Bool.and_eq_true, List.all_eq_true, List.mem_range] at h
  obtain ⟨u, hu, hb⟩ := next_of_nextIs h.1
  exact ⟨u, hu, by simpa using hb, fun m hm => next_of_nextIs (h.2 m hm)⟩

/-- Moves that keep the host's duties while a COMPUTE over [0x1000, 0x1009) runs: SEED written, a command discarded, the byte
after the buffer written, a WAIT. -/
def dutifulMoves : List Input := [inputWr .seed 7#32, inputCmd .init, .bufferWrite 0x1009#64 0#8, .wait]

theorem dutifulMoves_keepDuty : ∀ i ∈ dutifulMoves, i.keepsDuty ready.addr ready.len := by
  simp only [dutifulMoves, List.forall_mem_cons]
  refine ⟨trivial, trivial, ?_, trivial, nofun⟩
  show ¬(ready.addr.toNat ≤ (0x1009#64).toNat ∧ (0x1009#64).toNat < ready.addr.toNat + ready.len.toNat)
  decide

/-- The hypotheses of a software computation over "123456789" at 0x1000. -/
theorem witness_SoftwareComputeMatchesReference :
    Inv ready ∧ ready.busy = false ∧ ready.inputs = [] ∧ ready.tblValid = true ∧
      ready.addr.toNat + ready.len.toNat ≤ 2 ^ 64 ∧ ready.len ≠ 0#32 ∧ digits.length = ready.len.toNat ∧
      ready.mem.holds ready.addr digits :=
  ⟨inv_ready, by decide, rfl, by decide, by decide, by decide, by decide, holds_digits⟩

theorem witness_SoftwareComputeMatchesReference_moves :
    ∃ t u, exec .computeSw ready = .next t ∧ endsIn 9 { t with inputs := dutifulMoves } u :=
  ⟨issueSoftware ready, (endsIn_of (by decide +kernel)).imp fun _ h => ⟨rfl, h⟩⟩

theorem witness_HardwareComputeMatchesReference :
    (Inv ready ∧ ready.busy = false ∧ ready.hwAvail = true ∧ ready.addr.toNat + ready.len.toNat ≤ 2 ^ 64 ∧
      ready.len ≠ 0#32 ∧ digits.length = ready.len.toNat ∧ ready.mem.holds ready.addr digits) ∧
    ∃ t u, exec .computeHw ready = .next t ∧ endsIn 5 { t with inputs := dutifulMoves } u :=
  ⟨⟨inv_ready, by decide, by decide, by decide, by decide, by decide, holds_digits⟩,
    issueHardware ready, (endsIn_of (by decide +kernel)).imp fun _ h => ⟨rfl, h⟩⟩

theorem witness_StepCountsAreExact :
    (softwareSteps ready.addr.toNat ready.len.toNat = 3) ∧
    (∃ t u, exec .tblgen bare = .next t ∧ step t = .next u) ∧
    (∃ t u, exec .computeHw ready = .next t ∧ t.busy = true ∧ step t = .next u) :=
  ⟨by decide, ⟨_, _, rfl, rfl⟩, by
    obtain ⟨t, ht, hb⟩ := next_of_nextIs (r := exec .computeHw ready)
      (p := fun t => t.busy && nextIs (step t) fun _ => true) (by decide +kernel)
    simp only [Bool.and_eq_true] at hb
    obtain ⟨u, hu, -⟩ := next_of_nextIs hb.2
    exact ⟨t, u, ht, hb.1, hu⟩⟩

/-- TBLGEN, a COMPUTE.SW and a COMPUTE.HW that pass their checks, and one that does not: RANGE. -/
theorem witness_EveryLongCommandEnds :
    ([ready.withFetchWord 32 0x1, ready.withFetchWord 32 0x20, ready.withFetchWord 32 0x120].all fun s =>
      !s.busy && s.submitsLong && nextIs (step s) fun t => t.busy) = true ∧
    (let s := { ready with addr := 0xFFFFFFFFFFFFFFFC#64, len := 5#32 }.withFetchWord 32 0x20
     (!s.busy && !s.submitsLong && nextIs (step s) fun t => !t.busy) = true) ∧
    (Inv atBulk ∧ atBulk.inputs = []) ∧ Inv ready ∧ ready.inputs = [] :=
  ⟨by decide +kernel, by decide +kernel, ⟨inv_atBulk, rfl⟩, inv_ready, rfl⟩

theorem witness_HardwareAndSoftwarePathsAgree :
    Inv ready ∧ ready.busy = false ∧ ready.inputs = [] ∧ ready.tblValid = true ∧ ready.hwAvail = true ∧
      ready.addr.toNat + ready.len.toNat ≤ 2 ^ 64 ∧ digits.length = ready.len.toNat ∧ ready.mem.holds ready.addr digits :=
  ⟨inv_ready, by decide, rfl, by decide, by decide, by decide, by decide, holds_digits⟩

theorem witness_KnownVector :
    Inv ready ∧ ready.busy = false ∧ ready.inputs = [] ∧ ready.tblValid = true ∧ ready.seed = 0#32 ∧ ready.len = 9#32 ∧
      ready.addr.toNat + 9 ≤ 2 ^ 64 ∧
      ready.mem.holds ready.addr [0x31#8, 0x32#8, 0x33#8, 0x34#8, 0x35#8, 0x36#8, 0x37#8, 0x38#8, 0x39#8] :=
  ⟨inv_ready, by decide, rfl, by decide, by decide, by decide, by decide, holds_digits⟩

theorem witness_BrokenBufferDutyFreesOnlyTheResult :
    (atBulk.busy = true ∧ atBulk.phase ≠ .tblgen ∧ atBulk.bufAddr.toNat ≤ (0x1000#64).toNat ∧
      (0x1008#64).toNat < atBulk.bufAddr.toNat + atBulk.bufLen.toNat) ∧
    (let s := { atFinish with dutyBroken := true }
     s.nextIsEngine = true ∧ s.busy = true ∧ s.dutyBroken = true ∧ s.phase = .finish) ∧
    (let s := { atHwrun with dutyBroken := true }
     s.nextIsEngine = true ∧ s.busy = true ∧ s.dutyBroken = true ∧ s.phase = .hwrun ∧ digits.length = s.rem.toNat ∧
      s.mem.holds s.cur digits) :=
  ⟨by decide, by decide, by decide, by decide, by decide, by decide, by decide, holds_digits⟩

/-- An offset for each clause of the register map; the reserved range and the TABLE window at their first and last offset. -/
def mapOffsets : List DWord :=
  [0x000, 0x004, 0x008, 0x00C, 0x010, 0x014, 0x018, 0x01C, 0x020, 0x024, 0x028, 0x02C, 0x030, 0xFFC, 0x1000, 0x2FFC]

/-- Every clause of the read map, the two of the TABLE window at its first and last offset. -/
theorem witness_ReadsFollowTheRegisterMap :
    (∀ off, { ready with inputs := [.host ⟨off, .w32, .read⟩] }.inputs = .host ⟨off, .w32, .read⟩ :: []) ∧
    (mapOffsets.all fun off => off.toNat % 4 == 0) = true ∧ ready.tblValid = true ∧ bare.tblValid = false :=
  ⟨fun _ => rfl, by decide +kernel, by decide, by decide⟩

theorem witness_WritesFollowTheRegisterMap :
    (∀ off v, { ready with inputs := [.host ⟨off, .w32, .write v⟩] }.inputs = .host ⟨off, .w32, .write v⟩ :: []) ∧
    (mapOffsets.all fun off => off.toNat % 4 == 0 && off.toNat ≤ 0x2FFC) = true := ⟨fun _ _ => rfl, by decide +kernel⟩

theorem witness_TableWindowShowsTheTable :
    ready.tblValid = true ∧
    { ready with inputs := [inputRd (.table 7#3 0xFF#8)] }.inputs = inputRd (.table 7#3 0xFF#8) :: [] ∧
    { bare with inputs := [inputWr (.table 7#3 0xFF#8) 1#32] }.inputs = inputWr (.table 7#3 0xFF#8) 1#32 :: [] :=
  ⟨by decide, rfl, rfl⟩

/-- A narrow access, a misaligned one at the window's end, and the first address after the window. -/
theorem witness_IllegalAccessesAreBusErrors :
    ((⟨0x000#64, .w8, .read⟩ : HostAccess).off.toNat < 0x3000 ∧ (⟨0x000#64, .w8, .read⟩ : HostAccess).width ≠ .w32) ∧
    ((⟨0x2FFF#64, .w32, .read⟩ : HostAccess).off.toNat < 0x3000 ∧ (⟨0x2FFF#64, .w32, .read⟩ : HostAccess).off.toNat % 4 ≠ 0) ∧
    0x3000 ≤ (⟨0x3000#64, .w32, .read⟩ : HostAccess).off.toNat := by decide

theorem witness_WaitEndsWithBusyClear :
    (Inv { ready with inputs := [.wait] } ∧ { ready with inputs := [.wait] }.inputs = .wait :: []) ∧
      Inv { atBulk with inputs := [.wait] } ∧ assemble [.cmd .tblgen, .wait] = [inputCmd .tblgen] ++ [Input.wait] :=
  ⟨⟨inv_withInputs inv_ready _, rfl⟩, inv_withInputs inv_atBulk _, rfl⟩

/-- BOOT (R99) ends after its CMD write and one poll, an engine step and the last poll; not before that poll (R207). -/
theorem witness_WaitEndsWithBusyClear_program :
    (∃ u, programEnds 4 { bare with inputs := Asm.boot.expand } u) ∧ bare.busy = false ∧
      owesPoll 3 false { bare with inputs := Asm.boot.expand } = true := by
  obtain ⟨u, hu, h⟩ := next_of_nextIs (r := runSteps 4 { bare with inputs := Asm.boot.expand })
    (p := fun t => t.operationsDone) (by decide +kernel)
  exact ⟨⟨u, hu, h, by decide +kernel⟩, by decide, by decide +kernel⟩

/-- P9 line 8: a COMPUTE.SW turned away with RANGE is no long command, so the program ends with its CMD write (R97, R207). -/
theorem test_program_ends_on_range :
    let s := { ready with addr := 0xFFFFFFFFFFFFFFFF#64, len := 2#32, inputs := [inputCmd .computeSw] }
    ∃ u, programEnds 1 s u ∧ u.errcode = .range := by
  intro s
  obtain ⟨u, hu, h⟩ := next_of_nextIs (r := runSteps 1 s) (p := fun t => t.operationsDone && t.errcode == .range)
    (by decide +kernel)
  simp only [Bool.and_eq_true, beq_iff_eq] at h
  exact ⟨u, ⟨hu, h.1, by decide +kernel⟩, h.2⟩

theorem witness_ClrerrClearsTheErrorState :
    (Inv ready ∧ ready.errcode = .none) ∧ failed.busy = false ∧ atBulk.busy = true ∧
      statusWord { bare with errcode := .tableNotReady } = 0x00000300#32 ∧
      ∃ t, step (bare.withFetchWord 32 0x10) = .next t ∧ bare.accValid = false ∧ t.accValid = true :=
  ⟨⟨inv_ready, by decide⟩, by decide, by decide, by decide +kernel,
    (next_of_nextIs (p := fun t => t.accValid) (by decide +kernel)).imp fun _ h => ⟨h.1, by decide, h.2⟩⟩

theorem witness_FirstErrorIsKept :
    ready.errcode = .none ∧ failed.errcode ≠ .none ∧ failed.faulted = true ∧ ∃ t, step failed = .next t :=
  ⟨by decide, by decide, by decide, _, rfl⟩

theorem witness_ErrorStateClearedOnlyByClrerrOrReset :
    let s := { failed with errovf := true, inputs := [.engine] }
    (∃ t, step s = .next t) ∧ s.nextIsReset = false ∧ ¬(s.busy = false ∧ s.nextIsCommand 0x00000002#32 = true) ∧
      s.errcode ≠ .none ∧ s.errovf = true := ⟨⟨_, rfl⟩, by decide, by decide, by decide, by decide⟩

/-- An error at issue, and a discarded command. -/
theorem witness_ResultChangesOnlyOnCompletion_errors :
    (∃ s t : State, step s = .next t ∧ s.errcode = .none ∧ t.errcode ≠ .none) ∧
    ∃ s t : State, step s = .next t ∧ s.errovf = false ∧ t.errovf = true := by
  obtain ⟨t, ht, h⟩ := next_of_nextIs (r := step (bare.withFetchWord 32 0x11)) (p := fun t => t.errcode != .none)
    (by decide +kernel)
  obtain ⟨u, hu, h'⟩ := next_of_nextIs (r := step (failed.withFetchWord 32 0x11)) (p := fun t => t.errovf) (by decide +kernel)
  exact ⟨⟨_, t, ht, rfl, by simpa using h⟩, _, u, hu, rfl, h'⟩

theorem witness_ResultChangesOnlyOnCompletion_refused :
    refusedHwrun.nextIsEngine = true ∧ refusedHwrun.busy = true ∧ refusedHwrun.phase = .hwrun ∧
      8 < refusedHwrun.rem.toNat ∧ refusedHwrun.mem.readable (refusedHwrun.cur + BitVec.ofNat 64 8) = false := by decide +kernel

theorem witness_ResultChangesOnlyOnCompletion : ∃ t, step atFinish = .next t ∧ t.result ≠ atFinish.result := by
  obtain ⟨t, ht, h⟩ := next_of_nextIs (r := step atFinish) (p := fun t => t.result != atFinish.result) (by decide +kernel)
  exact ⟨t, ht, by simpa using h⟩

theorem witness_CommandsChangeOnlyTheirRegisters : ∀ i : Instr, ∃ t, exec i ready = .next t := by
  intro i; cases i <;> exact ⟨_, rfl⟩

theorem witness_EngineStepsChangeOnlyTheirRegisters :
    ([atHead, atBulk, atTail, atFinish, atTblgen, atHwrun].all fun s => s.busy && nextIs (engineTurn s) fun _ => true) = true := by
  decide +kernel

theorem witness_BlockNeverWritesBufferMemory :
    ((∃ t, step atFinish = .next t) ∧ atFinish.nextIsBufferWrite = false) ∧
    ∃ t, step { brokenBulk with inputs := [.bufferWrite 0x1003#64 0#8] } = .next t ∧ t.mem.readable 0x1003#64 = false :=
  ⟨⟨⟨_, rfl⟩, by decide⟩, _, rfl, by decide +kernel⟩

theorem witness_CapabilityFlagIsConstant : (∃ t, step atFinish = .next t) ∧ atFinish.nextIsReset = false :=
  ⟨⟨_, rfl⟩, by decide⟩

/-- INIT sets ACC_VALID; a refused read clears it. -/
theorem witness_AccValidChangesOnlyAsSummarised :
    (∃ s t : State, step s = .next t ∧ s.accValid = false ∧ t.accValid = true) ∧
    ∃ s t : State, step s = .next t ∧ s.accValid = true ∧ t.accValid = false := by
  obtain ⟨t, ht, h⟩ := next_of_nextIs (r := step (bare.withFetchWord 32 0x10)) (p := fun t => t.accValid) (by decide +kernel)
  obtain ⟨u, hu, h'⟩ := next_of_nextIs (r := step brokenBulk) (p := fun t => !t.accValid) (by decide +kernel)
  exact ⟨⟨_, t, ht, rfl, h⟩, _, u, hu, rfl, by simpa using h'⟩

theorem witness_ResetAbandonsTheCommand :
    (∀ a, { atBulk with inputs := [.reset true a] }.inputs = .reset true a :: []) ∧ atBulk.busy = true ∧
      (Reg.offset .cmd).toNat % 4 = 0 ∧ (Reg.offset .seed).toNat % 4 = 0 := ⟨fun _ => rfl, by decide⟩

/-- R260: a CMD write while the reset input is asserted has no effect. -/
theorem test_reset_held :
    nextIs (step { atBulk with inputs := [.reset false (some (HostAccess.wr .cmd 0x1#32))] })
      (fun t => statusWord t == 0#32 && t.response == some .done && t.result == 0#32) = true := by decide +kernel

theorem witness_SequencerInvariantKept :
    SequencerInv atBulk ∧ (∃ t, step atBulk = .next t) ∧ atBulk.tblValid = true ∧ atBulk.nextIsReset = false :=
  ⟨inv_atBulk.sequencer, (next_of_nextIs (p := fun _ => true) (by decide +kernel)).imp fun _ h => h.1, by decide, by decide⟩

theorem witness_BlockInvariantKept : Inv atBulk ∧ ∃ t, step atBulk = .next t :=
  ⟨inv_atBulk, (next_of_nextIs (p := fun _ => true) (by decide +kernel)).imp fun _ h => h.1⟩

theorem witness_NoStepStops : Inv atBulk ∧ Inv bare := ⟨inv_atBulk, inv_bare⟩

end Sys2Proof.Machine
end

section
/-! PROOF. The register window and BASE (00_scope.md R8, 43_host_access_and_control.md R200): how an access at a bus address is
placed relative to BASE, and which addresses are the block's. -/

namespace Sys2Proof.Machine

/-- BASE is the page number above 12 zero bits (log entry 13), read as a number. -/
theorem base_toNat : Config.base.toNat = Config.basePage.toNat * 0x1000 := by
  rw [Config.base, BitVec.toNat_append, BitVec.toNat_zero, Nat.or_zero, Nat.shiftLeft_eq]

@[simp] theorem HostAccess.atAddress_base_add (off : DWord) (width : Width) (op : HostOp) :
    HostAccess.atAddress (Config.base + off) width op = ⟨off, width, op⟩ := by
  rw [HostAccess.atAddress, BitVec.add_comm, BitVec.add_sub_cancel]

/-- Every bus address is BASE plus the offset its access carries, also below BASE, since addresses are taken modulo 2^64. -/
@[simp] theorem HostAccess.base_add_off_atAddress (a : DWord) (width : Width) (op : HostOp) :
    Config.base + (HostAccess.atAddress a width op).off = a := by
  rw [HostAccess.atAddress, BitVec.add_comm, BitVec.sub_add_cancel]

theorem HostAccess.inWindow_iff (x : HostAccess) : x.inWindow = true ↔ x.off.toNat < 0x3000 := by
  rw [HostAccess.inWindow, decide_eq_true_iff]

/-- The address is in the window exactly when the offset of its access is the k below 0x3000. -/
theorem HostAccess.inWindow_atAddress_iff (a : DWord) (width : Width) (op : HostOp) :
    (HostAccess.atAddress a width op).inWindow = true ↔ ∃ k, k < 0x3000 ∧ a = Config.base + BitVec.ofNat 64 k := by
  rw [HostAccess.inWindow_iff]
  constructor
  · intro hoff
    exact ⟨_, hoff, by simp⟩
  · rintro ⟨k, hk, rfl⟩
    rw [HostAccess.atAddress_base_add, BitVec.toNat_ofNat]
    exact (Nat.mod_le k _).trans_lt hk

/-- Settles O44: BASE is its page number times 0x1000, subtracting BASE undoes adding it modulo 2^64, and the window's
addresses are those whose offset from BASE is below 0x3000. -/
theorem windowIsRelativeToBase : Obligations.WindowIsRelativeToBase := by
  unfold Obligations.WindowIsRelativeToBase
  refine ⟨?_, HostAccess.atAddress_base_add, HostAccess.inWindow_atAddress_iff⟩
  rw [base_toNat, Nat.mul_mod_left]

end Sys2Proof.Machine
end

section
/-! PROOF. What one step can do, flattened once: the outcomes of an issue rule, of an engine step and of a whole step, each an
inductive relation with one constructor per outcome, and the lemma that the model's function has no other. The step lemmas of the
state's family are case splits over these constructors. -/

namespace Sys2Proof.Machine

/-- The decoder answers an instruction for its own word alone (30_encoding.md R94). -/
theorem encode_of_decode_eq_ok {w : Word} {i : Instr} (h : decode w = .ok i) : encode i = w := by
  unfold decode at h
  split at h <;> cases h
  all_goals
    rename_i hw
    exact (BitVec.eq_of_toNat_eq hw).symm

/-- A range read is refused exactly when one of its bytes is (20_memory.md R83). -/
theorem Memory.readRange_eq_none_iff_exists (m : Memory) (a : DWord) (n : Nat) :
    m.readRange a n = none ↔ ∃ k, k < n ∧ m.readable (a + BitVec.ofNat 64 k) = false := by
  constructor
  · intro h
    obtain ⟨x, hx⟩ := List.exists_mem_of_ne_nil _ ((m.readRange_eq_none_iff a n).mp h)
    obtain ⟨hr, k, hk, rfl⟩ := m.mem_refused hx
    exact ⟨k, hk, hr⟩
  · rintro ⟨k, hk, hr⟩
    induction n generalizing a k with
    | zero => omega
    | succ n ih =>
      cases k with
      | zero =>
        have ha : m.read a = none := (m.read_eq_none_iff a).mpr (by simpa using hr)
        simp [Memory.readRange, ha]
      | succ k =>
        have hs : a + BitVec.ofNat 64 (k + 1) = a + 1#64 + BitVec.ofNat 64 k := by
          rw [Nat.add_comm k 1, BitVec.ofNat_add, BitVec.add_assoc]
        have ht := ih (a + 1#64) k (by omega) (by rw [← hs]; exact hr)
        simp [Memory.readRange, ht]

/-- An 8-byte read is refused exactly when one of its bytes is (20_memory.md R83). -/
theorem Memory.read8_eq_none_iff_exists (m : Memory) (a : DWord) :
    m.read8 a = none ↔ ∃ k, k < 8 ∧ m.readable (a + BitVec.ofNat 64 k) = false := by
  rw [← m.readRange_eq_none_iff_exists]
  unfold Memory.read8
  split <;> simp_all

/-- What the issue rule of an accepted command can leave behind, from the state s (41_accumulator_ops.md R132-R141;
42_compute_dispatch.md R162, R163, R171; 43_host_access_and_control.md R204; 40_table_generation.md R114). -/
inductive Issued (s : State) : Instr → State → Prop
  | raised {i : Instr} {e : ErrCode} (he : e ≠ .none) : Issued s i (raiseFor e i s)
  | tblgen : Issued s .tblgen (beginLong .tblgen s)
  | clrerr : Issued s .clrerr (clearError s)
  | init : Issued s .init { s with acc := enterDomain s.seed, accValid := true }
  | byte (ht : s.tblValid = true) (hv : s.accValid = true) :
      Issued s .byte { s with acc := byteStep s.table s.acc (dataByte s) }
  | fold8 (ht : s.tblValid = true) (hv : s.accValid = true) :
      Issued s .fold8 { s with acc := fold8 s.table s.acc (dataWord s) }
  | final (hv : s.accValid = true) : Issued s .final { s with result := finish s.acc }
  | emptySoftware : Issued s .computeSw { s with result := s.seed }
  | emptyHardware : Issued s .computeHw { s with result := s.seed }
  | software (hr : s.addr.toNat + s.len.toNat ≤ 2 ^ 64) (hl : s.len ≠ 0#32) (ht : s.tblValid = true) :
      Issued s .computeSw (beginLong (normHead s.addr s.len) { latchBuffer s with acc := enterDomain s.seed, accValid := true })
  | hardware (hr : s.addr.toNat + s.len.toNat ≤ 2 ^ 64) (hl : s.len ≠ 0#32) :
      Issued s .computeHw (beginLong .hwrun { latchBuffer s with lseed := s.seed })

section issue
variable {s : State}

/-- What BYTE and FOLD8 share: an error, or ACC written while the table and ACC are valid (41_accumulator_ops.md R134, R137). -/
theorem reduceInto_cases (i : Instr) (v : DWord) (s : State) :
    (∃ e, e ≠ .none ∧ reduceInto i v s = raiseFor e i s) ∨
      (s.tblValid = true ∧ s.accValid = true ∧ reduceInto i v s = { s with acc := v }) := by
  unfold reduceInto
  split
  · exact .inl ⟨_, by decide, rfl⟩
  · rename_i ht
    split
    · exact .inl ⟨_, by decide, rfl⟩
    · rename_i hv
      exact .inr ⟨by simpa using ht, by simpa using hv, rfl⟩

theorem range_of_not_outOfRange (h : ¬outOfRange s = true) : s.addr.toNat + s.len.toNat ≤ 2 ^ 64 := by
  simpa [outOfRange] using h

theorem issued_issueSoftware (s : State) : Issued s .computeSw (issueSoftware s) := by
  unfold issueSoftware
  split
  · exact .raised (by decide)
  rename_i hr
  split
  · exact .emptySoftware
  rename_i hl
  split
  · exact .raised (by decide)
  rename_i ht
  exact .software (range_of_not_outOfRange hr) hl (by simpa using ht)

theorem issued_issueHardware (s : State) : Issued s .computeHw (issueHardware s) := by
  unfold issueHardware
  split
  · exact .raised (by decide)
  split
  · exact .raised (by decide)
  rename_i hr
  split
  · exact .emptyHardware
  rename_i hl
  exact .hardware (range_of_not_outOfRange hr) hl

/-- An issue rule has no outcome but those of Issued. -/
theorem issued_of_exec {i : Instr} {t : State} (h : exec i s = .next t) : Issued s i t := by
  cases i <;> cases h
  case tblgen => exact .tblgen
  case clrerr => exact .clrerr
  case init => exact .init
  case byte =>
    obtain ⟨e, he, h⟩ | ⟨ht, hv, h⟩ := reduceInto_cases .byte (byteStep s.table s.acc (dataByte s)) s <;> rw [h]
    · exact .raised he
    · exact .byte ht hv
  case fold8 =>
    obtain ⟨e, he, h⟩ | ⟨ht, hv, h⟩ := reduceInto_cases .fold8 (fold8 s.table s.acc (dataWord s)) s <;> rw [h]
    · exact .raised he
    · exact .fold8 ht hv
  case final =>
    split
    · exact .raised (by decide)
    · rename_i hv
      exact .final (by simpa using hv)
  case computeSw => exact issued_issueSoftware s
  case computeHw => exact issued_issueHardware s

end issue

/-- The next read of the software path meets a refused byte (42_compute_dispatch.md R169; 20_memory.md R83). -/
def readRefused (s : State) : Prop :=
  ((s.phase = .head ∨ s.phase = .tail) ∧ s.mem.readable s.cur = false) ∨
    (s.phase = .bulk ∧ ∃ k, k < 8 ∧ s.mem.readable (s.cur + BitVec.ofNat 64 k) = false)

/-- s after n bytes have been consumed at CUR, with ACC and PHASE as given (42_compute_dispatch.md R165-R167). -/
def State.consumed (s : State) (n : Nat) (acc : DWord) (norm : DWord → Word → Phase) : State :=
  { s with
    acc := acc, cur := s.cur + BitVec.ofNat 64 n, rem := s.rem - BitVec.ofNat 32 n
    phase := norm (s.cur + BitVec.ofNat 64 n) (s.rem - BitVec.ofNat 32 n) }

/-- What an engine step can leave behind, from the state s (42_compute_dispatch.md R165-R169, R173, R174;
40_table_generation.md R115). -/
inductive Engined (s : State) : State → Prop
  | refused (h : readRefused s) : Engined s (abortSoftware s)
  | head (hp : s.phase = .head) (hr : 1 ≤ s.rem.toNat) (b : Byte) (hm : s.mem.read s.cur = some b) :
      Engined s (s.consumed 1 (byteStep s.table s.acc b) normHead)
  | bulk (hp : s.phase = .bulk) (hc : s.cur.toNat % 8 = 0) (hr : 8 ≤ s.rem.toNat) (w : DWord)
      (hm : s.mem.read8 s.cur = some w) : Engined s (s.consumed 8 (fold8 s.table s.acc w) normBulk)
  | tail (hp : s.phase = .tail) (hr : 1 ≤ s.rem.toNat) (b : Byte) (hm : s.mem.read s.cur = some b) :
      Engined s (s.consumed 1 (byteStep s.table s.acc b) normTail)
  | finish (hp : s.phase = .finish) : Engined s (endLong (deliverResult (finish s.acc) s))
  | tblgen (hp : s.phase = .tblgen) : Engined s (endLong { s with table := genTable, tblValid := true })
  | hwrun (hp : s.phase = .hwrun) (bs : List Byte) (hm : s.mem.readRange s.cur s.rem.toNat = some bs) :
      Engined s (endLong (deliverResult (crc32cSpec s.lseed bs) s))
  | hwRefused (hp : s.phase = .hwrun) (hm : s.mem.readRange s.cur s.rem.toNat = none) : Engined s (abortHardware s)

/-- An engine step has no outcome but those of Engined. -/
theorem engined_of_engineStep {s t : State} (h : engineStep s = .next t) : Engined s t := by
  obtain ⟨hp, h⟩ | ⟨hp, h⟩ | ⟨hp, h⟩ | ⟨hp, rfl⟩ | ⟨hp, rfl⟩ | ⟨hp, ⟨bs, hm, rfl⟩ | ⟨hm, rfl⟩⟩ := engineStep_next h
  · obtain ⟨hr, ⟨hm, rfl⟩ | ⟨b, hm, rfl⟩⟩ := consumeByte_next h
    · exact .refused (.inl ⟨.inl hp, (s.mem.read_eq_none_iff s.cur).mp hm⟩)
    · exact .head hp (by omega) b hm
  · obtain ⟨hc, hr, ⟨hm, rfl⟩ | ⟨w, hm, rfl⟩⟩ := bulkStep_next h
    · exact .refused (.inr ⟨hp, (s.mem.read8_eq_none_iff_exists s.cur).mp hm⟩)
    · exact .bulk hp hc hr w hm
  · obtain ⟨hr, ⟨hm, rfl⟩ | ⟨b, hm, rfl⟩⟩ := consumeByte_next h
    · exact .refused (.inl ⟨.inr hp, (s.mem.read_eq_none_iff s.cur).mp hm⟩)
    · exact .tail hp (by omega) b hm
  · exact .finish hp
  · exact .tblgen hp
  · exact .hwrun hp bs hm
  · exact .hwRefused hp hm

/-- t is s but for the operand registers, buffer memory, the queue, the port's answer and the ghosts of the host's side: what the
host and other masters write without a command (43_host_access_and_control.md R202, R205). -/
def SameBlock (s t : State) : Prop :=
  t = { s with
    seed := t.seed, len := t.len, addr := t.addr, data := t.data, mem := t.mem, inputs := t.inputs
    response := t.response, hostFaulted := t.hostFaulted, dutyBroken := t.dutyBroken }

/-- s when its next move, a CMD write, has been taken and answered (43_host_access_and_control.md R202). -/
def State.atCommand (s : State) : State := respond .done s.popped

/-- What one step can leave behind: a move that does not reach the block, an engine step, a CMD write by what SubmitCommand
does with its word (60_exceptions.md R225), or an instant of reset (70_reset_and_hazards.md R260). -/
inductive Stepped (s : State) : State → Prop
  | quiet {t : State} (h : SameBlock s t) (hm : s.mem.wf = true → t.mem.wf = true) : Stepped s t
  | engine {t : State} (hn : s.nextIsEngine = true) (hb : s.busy = true) (h : Engined s.popped t) : Stepped s t
  | whileBusy (w : Word) (hc : s.nextIsCommand w = true) (hb : s.busy = true) :
      Stepped s (raiseForWord .cmdWhileBusy w s.atCommand)
  | cleared (hc : s.nextIsCommand (encode .clrerr) = true) (hb : s.busy = false) : Stepped s (clearError s.atCommand)
  | discarded (w : Word) (hc : s.nextIsCommand w = true) (hb : s.busy = false) (he : s.errcode ≠ .none)
      (hw : w ≠ encode .clrerr) : Stepped s { s.atCommand with errovf := true }
  | illegal (w : Word) (hc : s.nextIsCommand w = true) (hb : s.busy = false) (he : s.errcode = .none)
      (hd : decode w = .error .illegal) : Stepped s (raiseForWord .illegalCmd w s.atCommand)
  | issued {t : State} (i : Instr) (hc : s.nextIsCommand (encode i) = true) (hb : s.busy = false) (he : s.errcode = .none)
      (h : Issued s.atCommand i t) : Stepped s t
  | reset (p : Bool) (r : Option Response) (f : Bool) (hn : s.nextIsReset = true) :
      Stepped s { applyReset p s.popped with response := r, hostFaulted := f }

section step
variable {s t : State}

theorem nextIsCommand_of_head {w : Word} (h : s.inputs.head? = some (.host (HostAccess.wr .cmd w))) :
    s.nextIsCommand w = true := by
  obtain ⟨rest, hi⟩ := List.head?_eq_some_iff.mp h
  simp [State.nextIsCommand, hi]

theorem nextIsReset_of_head {p : Bool} {a : Option HostAccess} (h : s.inputs.head? = some (.reset p a)) :
    s.nextIsReset = true := by
  obtain ⟨rest, hi⟩ := List.head?_eq_some_iff.mp h
  simp [State.nextIsReset, hi]

/-- A CMD write has no outcome but those of Stepped (60_exceptions.md R225). -/
theorem stepped_of_submitCommand {w : Word} (hc : s.nextIsCommand w = true) (h : submitCommand w s.atCommand = .next t) :
    Stepped s t := by
  obtain ⟨hb, rfl⟩ | ⟨hb, -, rfl, rfl⟩ | ⟨hb, he, hw, rfl⟩ | ⟨hb, he, hd, rfl⟩ | ⟨hb, he, i, hd, hx⟩ := submitCommand_next h
  · exact .whileBusy w hc hb
  · exact .cleared hc hb
  · exact .discarded w hc hb he hw
  · exact .illegal w hc hb he hd
  · obtain rfl := encode_of_decode_eq_ok hd
    exact .issued i hc hb he (issued_of_exec hx)

/-- A poll of WAIT changes the answer and, while BUSY = 1, the queue. -/
theorem waitPoll_sameBlock : SameBlock s (waitPoll s.popped) := by
  unfold waitPoll
  simp only
  split <;> rfl

/-- A step has no outcome but those of Stepped. -/
theorem stepped_of_step (h : step s = .next t) : Stepped s t := by
  obtain ⟨hn, h⟩ | ⟨a, ha, h⟩ | ⟨-, rfl⟩ | ⟨a, b, -, rfl⟩ | ⟨p, a, ha, rfl⟩ := step_next h
  · obtain ⟨hb, h⟩ | ⟨-, rfl⟩ := engineTurn_next h
    · exact .engine hn hb (engined_of_engineStep h)
    · exact .quiet rfl id
  · obtain rfl | rfl | ⟨v, rfl⟩ | rfl | ⟨v, rfl⟩ | ⟨v, rfl⟩ | ⟨v, rfl⟩ | ⟨v, rfl⟩ | ⟨w, rfl, hw⟩ := hostAccess_next h
    case inr.inr.inr.inr.inr.inr.inr.inr => exact stepped_of_submitCommand (nextIsCommand_of_head ha) hw
    all_goals exact .quiet rfl id
  · refine .quiet waitPoll_sameBlock fun hm => ?_
    rw [show (waitPoll s.popped).mem = s.mem by unfold waitPoll; simp only; split <;> rfl]
    exact hm
  · exact .quiet rfl fun hm => Memory.write_wf hm a b
  · obtain ⟨r, f, hr⟩ := resetMove_eq p a s.popped
    rw [hr]
    exact .reset p r f (nextIsReset_of_head ha)

end step

end Sys2Proof.Machine
end

section
/-! PROOF. Every step keeps the invariants of 10_state.md R46 and the rest of Inv: one lemma per part of the invariant, each a case
split over what a step can do. -/

namespace Sys2Proof.Machine

/-- What SequencerInv speaks of. -/
def State.sequencerPart (s : State) : DWord × Bool × Bool × Phase × Bool × DWord × Word :=
  (s.acc, s.accValid, s.busy, s.phase, s.tblValid, s.cur, s.rem)

/-- What the clauses of Inv on the buffer being read speak of. -/
def State.readingPart (s : State) : Phase × DWord × Word × DWord × Word := (s.phase, s.cur, s.rem, s.bufAddr, s.bufLen)

/-- The clauses of Inv on the error state (10_state.md R42; 60_exceptions.md R224, R227). -/
structure ErrorInv (s : State) : Prop where
  noError : s.errcode = .none → s.errinfo = 0#64 ∧ s.errovf = false
  ghost : s.errcode ≠ .none → s.faulted = true

/-- The clauses of Inv on the buffer being read (20_memory.md R60, R62; 42_compute_dispatch.md R164, R179). -/
structure ReadingInv (s : State) : Prop where
  head : s.phase = .head → 0 < s.rem.toNat ∧ s.cur.toNat % 8 ≠ 0
  hwrun : s.phase = .hwrun → 0 < s.rem.toNat
  buffer : s.phase.reading = true →
    s.bufAddr.toNat ≤ s.cur.toNat ∧ s.cur.toNat + s.rem.toNat = s.bufAddr.toNat + s.bufLen.toNat ∧
      s.cur.toNat + s.rem.toNat ≤ 2 ^ 64

theorem inv_iff_parts (s : State) :
    Inv s ↔ SequencerInv s ∧ (s.tblValid = true → s.table = genTable) ∧ ErrorInv s ∧ ReadingInv s ∧ s.mem.wf = true := by
  constructor
  · intro h
    exact ⟨h.sequencer, h.table, ⟨h.noError, h.ghost⟩, ⟨h.head, h.hwrun, h.buffer⟩, h.memory⟩
  · rintro ⟨hseq, htbl, herr, hrd, hmem⟩
    exact ⟨hseq, htbl, herr.noError, herr.ghost, hrd.head, hrd.hwrun, hrd.buffer, hmem⟩

/-- The phase is one the software path may be in over rem bytes left at cur: what Norm establishes (42_compute_dispatch.md R164). -/
structure PhaseFits (p : Phase) (cur : DWord) (rem : Word) : Prop where
  software : p.software = true
  head : p = .head → 0 < rem.toNat ∧ cur.toNat % 8 ≠ 0
  bulk : p = .bulk → cur.toNat % 8 = 0 ∧ 8 ≤ rem.toNat
  tail : p = .tail → 0 < rem.toNat ∧ rem.toNat < 8
  finish : p = .finish → rem.toNat = 0

section norm
variable {cur : DWord} {rem : Word}

theorem phaseFits_head (hr : 0 < rem.toNat) (hc : cur.toNat % 8 ≠ 0) : PhaseFits .head cur rem :=
  ⟨rfl, fun _ => ⟨hr, hc⟩, nofun, nofun, nofun⟩

theorem phaseFits_bulk (hc : cur.toNat % 8 = 0) (hr : 8 ≤ rem.toNat) : PhaseFits .bulk cur rem :=
  ⟨rfl, nofun, fun _ => ⟨hc, hr⟩, nofun, nofun⟩

theorem phaseFits_tail (h0 : 0 < rem.toNat) (h8 : rem.toNat < 8) : PhaseFits .tail cur rem :=
  ⟨rfl, nofun, nofun, fun _ => ⟨h0, h8⟩, nofun⟩

theorem phaseFits_finish (h : rem.toNat = 0) : PhaseFits .finish cur rem :=
  ⟨rfl, nofun, nofun, nofun, fun _ => h⟩

theorem phaseFits_normTail (h : rem.toNat < 8) : PhaseFits (normTail cur rem) cur rem := by
  unfold normTail
  split
  · exact phaseFits_tail ‹_› h
  · exact phaseFits_finish (by omega)

theorem phaseFits_normBulk (h : cur.toNat % 8 = 0) : PhaseFits (normBulk cur rem) cur rem := by
  unfold normBulk
  split
  · exact phaseFits_bulk h ‹_›
  · exact phaseFits_normTail (by omega)

theorem phaseFits_normHead : PhaseFits (normHead cur rem) cur rem := by
  unfold normHead
  split
  · exact phaseFits_finish ‹_›
  · split
    · exact phaseFits_head (by omega) ‹_›
    · exact phaseFits_normBulk (by omega)

theorem PhaseFits.ne_of_not_software {p q : Phase} (h : PhaseFits p cur rem) (hq : q.software = false) : p ≠ q := by
  rintro rfl
  rw [h.software] at hq
  cases hq

/-- Only FINISH is reached with no byte left. -/
theorem PhaseFits.rem_pos {p : Phase} (h : PhaseFits p cur rem) (hp : p.reading = true) : 0 < rem.toNat := by
  cases p with
  | idle => cases hp
  | head => exact (h.head rfl).1
  | bulk => have := (h.bulk rfl).2; omega
  | tail => exact (h.tail rfl).1
  | finish => cases hp
  | tblgen => cases hp
  | hwrun => cases h.software

end norm

section keeps
variable {s t : State} {i : Instr}

/-! ## R46's clauses -/

theorem SequencerInv.congr (hs : SequencerInv s) (h : t.sequencerPart = s.sequencerPart) : SequencerInv t := by
  simp only [State.sequencerPart, Prod.mk.injEq] at h
  obtain ⟨hacc, hav, hbusy, hphase, htv, hcur, hrem⟩ := h
  constructor
  · rw [hacc, hav]; exact hs.accHigh
  · rw [hbusy, hphase]; exact hs.busyIff
  · rw [hphase, htv, hav]; exact hs.software
  · rw [hphase, hcur, hrem]; exact hs.bulk
  · rw [hphase, hrem]; exact hs.tail
  · rw [hphase, hrem]; exact hs.finish

theorem SequencerInv.phase_idle (hs : SequencerInv s) (hb : s.busy = false) : s.phase = .idle := by
  by_contra hp
  rw [hs.busyIff.mpr hp] at hb
  cases hb

theorem sequencerInv_of_idle (hb : s.busy = false) (hp : s.phase = .idle) (ha : s.accValid = true → highHalf s.acc = 0#32) :
    SequencerInv s where
  accHigh := ha
  busyIff := by simp [hb, hp]
  software := by simp [hp, Phase.software]
  bulk := by simp [hp]
  tail := by simp [hp]
  finish := by simp [hp]

/-- TBLGEN and HWRUN: the phases of R46 that are none of the software path's. -/
theorem sequencerInv_of_single (hb : s.busy = true) (hp : s.phase = .tblgen ∨ s.phase = .hwrun)
    (ha : s.accValid = true → highHalf s.acc = 0#32) : SequencerInv s := by
  constructor
  · exact ha
  all_goals obtain hp | hp := hp <;> simp [hb, hp, Phase.software]

theorem sequencerInv_of_phaseFits (hb : s.busy = true) (ht : s.tblValid = true) (hv : s.accValid = true)
    (ha : highHalf s.acc = 0#32) (hp : PhaseFits s.phase s.cur s.rem) : SequencerInv s where
  accHigh _ := ha
  busyIff := by simp [hb, hp.ne_of_not_software (q := .idle) rfl]
  software _ := ⟨ht, hv⟩
  bulk := hp.bulk
  tail := hp.tail
  finish := hp.finish

theorem highHalf_enterDomain (seed : Word) : highHalf (enterDomain seed) = 0#32 :=
  (highHalf_eq_zero_iff _).mpr (enterDomain_lt seed)

theorem highHalf_fold8 (tbl : Table) (acc w : DWord) : highHalf (fold8 tbl acc w) = 0#32 :=
  (highHalf_eq_zero_iff _).mpr (fold8_lt tbl acc w)

theorem highHalf_byteStep (tbl : Table) {acc : DWord} (h : highHalf acc = 0#32) (b : Byte) :
    highHalf (byteStep tbl acc b) = 0#32 := by
  have hlt := (highHalf_eq_zero_iff acc).mp h
  exact (highHalf_eq_zero_iff _).mpr (byteStep_lt tbl (by omega) b)

theorem sequencerPart_raiseForWord (e : ErrCode) (w : Word) (s : State) :
    (raiseForWord e w s).sequencerPart = s.sequencerPart := by
  simp [State.sequencerPart, raiseForWord]

theorem sequencerInv_of_issued (hs : SequencerInv s) (hb : s.busy = false) (h : Issued s i t) : SequencerInv t := by
  have hp := hs.phase_idle hb
  cases h with
  | raised he => exact hs.congr (sequencerPart_raiseForWord _ _ s)
  | tblgen => exact sequencerInv_of_single rfl (.inl rfl) hs.accHigh
  | clrerr => exact hs.congr rfl
  | init => exact sequencerInv_of_idle hb hp fun _ => highHalf_enterDomain s.seed
  | byte ht hv => exact sequencerInv_of_idle hb hp fun _ => highHalf_byteStep s.table (hs.accHigh hv) _
  | fold8 ht hv => exact sequencerInv_of_idle hb hp fun _ => highHalf_fold8 s.table s.acc _
  | final hv => exact hs.congr rfl
  | emptySoftware => exact hs.congr rfl
  | emptyHardware => exact hs.congr rfl
  | software hr hl ht => exact sequencerInv_of_phaseFits rfl ht rfl (highHalf_enterDomain s.seed) phaseFits_normHead
  | hardware hr hl => exact sequencerInv_of_single rfl (.inr rfl) hs.accHigh

theorem phaseFits_consumed_head (acc : DWord) :
    PhaseFits (s.consumed 1 acc normHead).phase (s.consumed 1 acc normHead).cur (s.consumed 1 acc normHead).rem :=
  phaseFits_normHead

/-- Eight bytes on, CUR is still aligned, so BULK goes on in BULK, TAIL or FINISH. -/
theorem phaseFits_consumed_bulk (hc : s.cur.toNat % 8 = 0) (acc : DWord) :
    PhaseFits (s.consumed 8 acc normBulk).phase (s.consumed 8 acc normBulk).cur (s.consumed 8 acc normBulk).rem := by
  refine phaseFits_normBulk ?_
  show (s.cur + 8#64).toNat % 8 = 0
  rw [BitVec.toNat_add, BitVec.toNat_ofNat]
  omega

theorem toNat_rem_consumed {n : Nat} (hn : n ≤ s.rem.toNat) (acc : DWord) (norm : DWord → Word → Phase) :
    (s.consumed n acc norm).rem.toNat = s.rem.toNat - n := by
  have hlt := s.rem.isLt
  show (s.rem - BitVec.ofNat 32 n).toNat = _
  rw [BitVec.toNat_sub_of_le] <;> simp only [BitVec.le_def, BitVec.toNat_ofNat] <;> rw [Nat.mod_eq_of_lt (by omega)]
  exact hn

theorem phaseFits_consumed_tail (h0 : 1 ≤ s.rem.toNat) (h8 : s.rem.toNat < 8) (acc : DWord) :
    PhaseFits (s.consumed 1 acc normTail).phase (s.consumed 1 acc normTail).cur (s.consumed 1 acc normTail).rem := by
  have hr := toNat_rem_consumed h0 acc normTail
  exact phaseFits_normTail (lt_of_eq_of_lt hr (by omega))

/-- Bytes consumed on the software path: only ACC's width and the next phase are to be checked. -/
theorem SequencerInv.consumed (hs : SequencerInv s) (hb : s.busy = true) (hp : s.phase.software = true) {n : Nat} {acc : DWord}
    {norm : DWord → Word → Phase} (ha : highHalf acc = 0#32)
    (hf : PhaseFits (s.consumed n acc norm).phase (s.consumed n acc norm).cur (s.consumed n acc norm).rem) :
    SequencerInv (s.consumed n acc norm) :=
  sequencerInv_of_phaseFits hb (hs.software hp).1 (hs.software hp).2 ha hf

theorem sequencerInv_of_engined (hs : SequencerInv s) (hb : s.busy = true) (h : Engined s t) : SequencerInv t := by
  have hacc (hp : s.phase.software = true) : highHalf s.acc = 0#32 := hs.accHigh (hs.software hp).2
  cases h with
  | refused h => exact sequencerInv_of_idle rfl rfl nofun
  | head hp hr b hm =>
    have hsw : s.phase.software = true := by rw [hp]; rfl
    exact hs.consumed hb hsw (highHalf_byteStep _ (hacc hsw) b) (phaseFits_consumed_head _)
  | bulk hp hc hr w hm =>
    exact hs.consumed hb (by rw [hp]; rfl) (highHalf_fold8 _ _ w) (phaseFits_consumed_bulk hc _)
  | tail hp hr b hm =>
    have hsw : s.phase.software = true := by rw [hp]; rfl
    exact hs.consumed hb hsw (highHalf_byteStep _ (hacc hsw) b) (phaseFits_consumed_tail hr (hs.tail hp).2 _)
  | finish hp => exact sequencerInv_of_idle rfl rfl (by simpa using hs.accHigh)
  | tblgen hp => exact sequencerInv_of_idle rfl rfl hs.accHigh
  | hwrun hp bs hm => exact sequencerInv_of_idle rfl rfl (by simpa using hs.accHigh)
  | hwRefused hp hm => exact sequencerInv_of_idle rfl rfl (by simpa using hs.accHigh)

theorem sequencerInv_of_stepped (hs : SequencerInv s) (h : Stepped s t) : SequencerInv t := by
  cases h with
  | quiet h hm => exact hs.congr (congrArg State.sequencerPart h :)
  | engine hn hb h => exact sequencerInv_of_engined (s := s.popped) (hs.congr rfl) hb h
  | whileBusy w _ hb => exact hs.congr (sequencerPart_raiseForWord _ w s.atCommand)
  | cleared hc hb => exact hs.congr rfl
  | discarded w _ hb he hw => exact hs.congr rfl
  | illegal w _ hb he hd => exact hs.congr (sequencerPart_raiseForWord _ w s.atCommand)
  | issued i hc hb he h => exact sequencerInv_of_issued (s := s.atCommand) (hs.congr rfl) hb h
  | reset p r f hn => exact sequencerInv_of_idle rfl rfl nofun

/-! ## The table -/

/-- No issue rule writes the table or its flag (10_state.md R40). -/
theorem table_of_issued (h : Issued s i t) : t.table = s.table ∧ t.tblValid = s.tblValid := by
  cases h with
  | raised he => simp [raiseFor, raiseForWord]
  | _ => exact ⟨rfl, rfl⟩

/-- An engine step leaves the table and its flag, or is the TBLGEN step (40_table_generation.md R115). -/
theorem table_of_engined (h : Engined s t) :
    (t.table = s.table ∧ t.tblValid = s.tblValid) ∨ (t.table = genTable ∧ t.tblValid = true) := by
  cases h with
  | tblgen hp => exact .inr ⟨rfl, rfl⟩
  | _ => exact .inl (by simp [State.consumed])

/-- A step leaves the table and its flag, or is the TBLGEN step or the reset (10_state.md R40). -/
theorem table_of_stepped (h : Stepped s t) :
    (t.table = s.table ∧ t.tblValid = s.tblValid) ∨ (t.table = genTable ∧ t.tblValid = true) ∨
      (s.nextIsReset = true ∧ t.tblValid = false) := by
  cases h with
  | quiet h hm => exact .inl ⟨(congrArg State.table h :), (congrArg State.tblValid h :)⟩
  | engine hn hb h => exact (table_of_engined h).imp_right .inl
  | whileBusy w _ hb => exact .inl (by simp [raiseForWord, State.atCommand])
  | cleared hc hb => exact .inl ⟨rfl, rfl⟩
  | discarded w _ hb he hw => exact .inl ⟨rfl, rfl⟩
  | illegal w _ hb he hd => exact .inl (by simp [raiseForWord, State.atCommand])
  | issued i hc hb he h => exact .inl (table_of_issued (s := s.atCommand) h)
  | reset p r f hn => exact .inr (.inr ⟨hn, rfl⟩)

theorem tblValid_of_stepped (h : Stepped s t) (hv : s.tblValid = true) (hn : s.nextIsReset = false) : t.tblValid = true := by
  obtain ⟨-, hv'⟩ | ⟨-, hv'⟩ | ⟨hr, -⟩ := table_of_stepped h
  · rw [hv', hv]
  · exact hv'
  · rw [hr] at hn; cases hn

theorem table_eq_genTable_of_stepped (hs : s.tblValid = true → s.table = genTable) (h : Stepped s t)
    (hv : t.tblValid = true) : t.table = genTable := by
  obtain ⟨ht, hv'⟩ | ⟨ht, -⟩ | ⟨-, hv'⟩ := table_of_stepped h
  · rw [ht, hs (hv' ▸ hv)]
  · exact ht
  · rw [hv] at hv'; cases hv'

/-! ## The error state -/

theorem errorInv_recordError {e : ErrCode} (he : e ≠ .none) (info : DWord) (s : State) :
    ErrorInv (recordError e info s) := by
  refine ⟨fun hn => ?_, fun _ => recordError_faulted s e info⟩
  by_cases h : s.errcode = .none
  · rw [recordError_of_none h] at hn
    exact absurd hn he
  · rw [recordError_of_some h] at hn
    exact absurd hn h

theorem ErrorInv.deliverResult (hs : ErrorInv s) (v : Word) : ErrorInv (deliverResult v s) := by
  constructor
  · simpa using hs.noError
  · simpa using hs.ghost

/-- With no error recorded there is no information, no overflow and nothing to mark (60_exceptions.md R227). -/
theorem errorInv_of_none (hi : s.errinfo = 0#64) (ho : s.errovf = false) (he : s.errcode = .none) : ErrorInv s :=
  ⟨fun _ => ⟨hi, ho⟩, fun h => absurd he h⟩

theorem errorInv_of_issued (hs : ErrorInv s) (h : Issued s i t) : ErrorInv t := by
  cases h with
  | raised he => exact errorInv_recordError he _ _
  | clrerr => exact errorInv_of_none rfl rfl rfl
  | _ => exact ⟨hs.noError, hs.ghost⟩

theorem errorInv_of_engined (hs : ErrorInv s) (h : Engined s t) : ErrorInv t := by
  cases h with
  | refused h =>
    have he := errorInv_recordError (e := .busError) (by decide) s.cur s
    exact ⟨he.noError, he.ghost⟩
  | hwRefused hp hm =>
    have he := errorInv_recordError (e := .busError) (by decide) (drawRefused s) s
    exact ⟨he.noError, he.ghost⟩
  | finish hp =>
    have he := hs.deliverResult (finish s.acc)
    exact ⟨he.noError, he.ghost⟩
  | hwrun hp bs hm =>
    have he := hs.deliverResult (crc32cSpec s.lseed bs)
    exact ⟨he.noError, he.ghost⟩
  | _ => exact ⟨hs.noError, hs.ghost⟩

theorem errorInv_of_stepped (hs : ErrorInv s) (h : Stepped s t) : ErrorInv t := by
  have hc : ErrorInv s.atCommand := ⟨hs.noError, hs.ghost⟩
  cases h with
  | quiet h hm => rw [h]; exact ⟨hs.noError, hs.ghost⟩
  | engine hn hb h => exact errorInv_of_engined (s := s.popped) ⟨hs.noError, hs.ghost⟩ h
  | whileBusy w _ hb => exact errorInv_recordError (by decide) _ _
  | cleared _ hb => exact errorInv_of_none rfl rfl rfl
  | discarded w _ hb he hw => exact ⟨fun h => absurd h he, hs.ghost⟩
  | illegal w _ hb he hd => exact errorInv_recordError (by decide) _ _
  | issued i _ hb he h => exact errorInv_of_issued hc h
  | reset p r f hn => exact errorInv_of_none rfl rfl rfl

/-! ## The buffer being read -/

theorem ReadingInv.congr (hs : ReadingInv s) (h : t.readingPart = s.readingPart) : ReadingInv t := by
  simp only [State.readingPart, Prod.mk.injEq] at h
  obtain ⟨hphase, hcur, hrem, haddr, hlen⟩ := h
  constructor
  · rw [hphase, hcur, hrem]; exact hs.head
  · rw [hphase, hrem]; exact hs.hwrun
  · rw [hphase, hcur, hrem, haddr, hlen]; exact hs.buffer

theorem readingInv_of_not_reading (h : t.phase.reading = false) : ReadingInv t := by
  refine ⟨fun hp => ?_, fun hp => ?_, fun hp => ?_⟩ <;> rw [hp] at h <;> cases h

theorem readingPart_raiseForWord (e : ErrCode) (w : Word) (s : State) :
    (raiseForWord e w s).readingPart = s.readingPart := by
  simp [State.readingPart, raiseForWord]

/-- A software phase that fits is off alignment in HEAD, so only the cursor's place in the buffer is to be checked. -/
theorem readingInv_of_phaseFits (hf : PhaseFits s.phase s.cur s.rem)
    (hbuf : s.phase.reading = true →
      s.bufAddr.toNat ≤ s.cur.toNat ∧ s.cur.toNat + s.rem.toNat = s.bufAddr.toNat + s.bufLen.toNat ∧
        s.cur.toNat + s.rem.toNat ≤ 2 ^ 64) : ReadingInv s :=
  ⟨hf.head, fun h => absurd h (hf.ne_of_not_software rfl), hbuf⟩

theorem readingInv_of_issued (hs : ReadingInv s) (h : Issued s i t) : ReadingInv t := by
  cases h with
  | raised he => exact hs.congr (readingPart_raiseForWord _ _ s)
  | tblgen => exact readingInv_of_not_reading rfl
  | software hr hl ht => exact readingInv_of_phaseFits phaseFits_normHead fun _ => ⟨le_rfl, rfl, hr⟩
  | hardware hr hl =>
    refine ⟨nofun, fun _ => ?_, fun _ => ⟨le_rfl, rfl, hr⟩⟩
    exact Nat.pos_of_ne_zero fun h => hl (BitVec.eq_of_toNat_eq h)
  | _ => exact hs.congr rfl

/-- n bytes of at least n left have been consumed; while the path is still reading, some are left, so the cursor has not passed
the top of the buffer space. -/
theorem ReadingInv.consumed (hs : ReadingInv s) (hp : s.phase.reading = true) {n : Nat} (hn : n ≤ s.rem.toNat) {acc : DWord}
    {norm : DWord → Word → Phase}
    (hf : PhaseFits (s.consumed n acc norm).phase (s.consumed n acc norm).cur (s.consumed n acc norm).rem) :
    ReadingInv (s.consumed n acc norm) := by
  refine readingInv_of_phaseFits hf fun hrd => ?_
  obtain ⟨hlo, hend, htop⟩ := hs.buffer hp
  have hleft := hf.rem_pos hrd
  have hrem := toNat_rem_consumed hn acc norm
  rw [hrem] at hleft ⊢
  have hcur : (s.consumed n acc norm).cur.toNat = s.cur.toNat + n := by
    show (s.cur + BitVec.ofNat 64 n).toNat = _
    rw [BitVec.toNat_add, BitVec.toNat_ofNat]
    omega
  rw [hcur]
  show s.bufAddr.toNat ≤ _ ∧ _ = s.bufAddr.toNat + s.bufLen.toNat ∧ _
  omega

theorem readingInv_of_engined (hseq : SequencerInv s) (hs : ReadingInv s) (h : Engined s t) : ReadingInv t := by
  cases h with
  | head hp hr b hm => exact hs.consumed (by rw [hp]; rfl) hr (phaseFits_consumed_head _)
  | bulk hp hc hr w hm => exact hs.consumed (by rw [hp]; rfl) hr (phaseFits_consumed_bulk hc _)
  | tail hp hr b hm => exact hs.consumed (by rw [hp]; rfl) hr (phaseFits_consumed_tail hr (hseq.tail hp).2 _)
  | _ => exact readingInv_of_not_reading rfl

theorem readingInv_of_stepped (hseq : SequencerInv s) (hs : ReadingInv s) (h : Stepped s t) : ReadingInv t := by
  cases h with
  | quiet h hm => exact hs.congr (congrArg State.readingPart h :)
  | engine hn hb h => exact readingInv_of_engined (s := s.popped) (hseq.congr rfl) (hs.congr rfl) h
  | whileBusy w _ hb => exact hs.congr (readingPart_raiseForWord _ w s.atCommand)
  | cleared hc hb => exact hs.congr rfl
  | discarded w _ hb he hw => exact hs.congr rfl
  | illegal w _ hb he hd => exact hs.congr (readingPart_raiseForWord _ w s.atCommand)
  | issued i hc hb he h => exact readingInv_of_issued (s := s.atCommand) (hs.congr rfl) h
  | reset p r f hn => exact readingInv_of_not_reading rfl

/-! ## Buffer memory -/

theorem mem_of_issued (h : Issued s i t) : t.mem = s.mem := by
  cases h with
  | raised he => exact recordError_mem s _ _
  | _ => rfl

/-- The engine has no store path (20_memory.md R62). -/
theorem mem_of_engined (h : Engined s t) : t.mem = s.mem := by
  cases h <;> simp [State.consumed]

theorem mem_wf_of_stepped (hs : s.mem.wf = true) (h : Stepped s t) : t.mem.wf = true := by
  cases h with
  | quiet h hm => exact hm hs
  | engine hn hb h => rw [mem_of_engined h]; exact hs
  | whileBusy w _ hb => rw [raiseForWord, recordError_mem]; exact hs
  | illegal w _ hb he hd => rw [raiseForWord, recordError_mem]; exact hs
  | issued i hc hb he h => rw [mem_of_issued h]; exact hs
  | _ => exact hs

end keeps

/-! ## The obligations -/

/-- Settles O58: every clause of R46 is kept by every outcome of a step, and only the reset clears TBL_VALID. -/
theorem sequencerInvariantKept : Obligations.SequencerInvariantKept := by
  unfold Obligations.SequencerInvariantKept
  intro s t hs h
  have hst := stepped_of_step h
  exact ⟨sequencerInv_of_stepped hs hst, tblValid_of_stepped hst⟩

/-- Settles O59: each part of Inv is kept by every outcome of a step; the buffer's part leans on R46's. -/
theorem blockInvariantKept : Obligations.BlockInvariantKept := by
  unfold Obligations.BlockInvariantKept
  intro s t hs h
  have hst := stepped_of_step h
  obtain ⟨hseq, htbl, herr, hrd, hmem⟩ := (inv_iff_parts s).mp hs
  exact (inv_iff_parts t).mpr
    ⟨sequencerInv_of_stepped hseq hst, table_eq_genTable_of_stepped htbl hst, errorInv_of_stepped herr hst,
      readingInv_of_stepped hseq hrd hst, mem_wf_of_stepped hmem hst⟩

/-- Settles O57: at reset the block is idle with no error and no valid table or accumulator, and memory is one span. -/
theorem invariantAtReset : Obligations.InvariantAtReset := by
  unfold Obligations.InvariantAtReset
  exact (inv_iff_parts State.reset).mpr
    ⟨sequencerInv_of_idle rfl rfl nofun, nofun, errorInv_of_none rfl rfl rfl, readingInv_of_not_reading rfl, by decide⟩

end Sys2Proof.Machine
end

section
/-! PROOF. The registers a host reads: the fields of STATUS (10_state.md R26, R43), the values at reset (R48), and the TABLE window
(R35). -/

namespace Sys2Proof.Machine

/-! ## STATUS -/

theorem getLsbD_flagBit (f : Bool) {n : Nat} (hn : n < 32) (i : Nat) : (flagBit f n).getLsbD i = (decide (i = n) && f) := by
  simp only [flagBit, BitVec.getLsbD_shiftLeft, BitVec.getLsbD_setWidth, BitVec.getLsbD_ofBool]
  by_cases h : i = n
  · subst h
    simp [hn]
  · grind

/-- A field of n bits placed at bit k of a 32-bit word. -/
theorem getLsbD_placed {n k : Nat} (x : BitVec n) (h : n + k ≤ 32) (i : Nat) :
    (x.setWidth 32 <<< k).getLsbD i = (decide (k ≤ i) && x.getLsbD (i - k)) := by
  simp only [BitVec.getLsbD_shiftLeft, BitVec.getLsbD_setWidth]
  by_cases hi : i < n + k
  · have h32 : i < 32 := by omega
    grind
  · simp [x.getLsbD_of_ge (i - k) (by omega)]

/-- Every bit of STATUS at once: two fields and five flags, each at its place. -/
theorem getLsbD_statusWord (s : State) (i : Nat) :
    (statusWord s).getLsbD i =
      ((decide (16 ≤ i) && (phaseBits s.phase).getLsbD (i - 16)) || (decide (8 ≤ i) && (errBits s.errcode).getLsbD (i - 8)) ||
        (decide (i = 4) && s.errovf) || (decide (i = 3) && s.hwAvail) || (decide (i = 2) && s.accValid) ||
        (decide (i = 1) && s.tblValid) || (decide (i = 0) && s.busy)) := by
  rw [statusWord, ← getLsbD_placed (phaseBits s.phase) (by decide), ← getLsbD_placed (errBits s.errcode) (by decide)]
  simp only [BitVec.getLsbD_or, ← getLsbD_flagBit _ (by decide : 4 < 32), ← getLsbD_flagBit _ (by decide : 3 < 32),
    ← getLsbD_flagBit _ (by decide : 2 < 32), ← getLsbD_flagBit _ (by decide : 1 < 32), ← getLsbD_flagBit _ (by decide : 0 < 32)]

theorem getLsbD_statusWord_hwAvail (s : State) : (statusWord s).getLsbD 3 = s.hwAvail := by
  rw [getLsbD_statusWord]
  simp

/-- Bits 7:5 are reserved. -/
theorem getLsbD_statusWord_reserved (s : State) {i : Nat} (h5 : 5 ≤ i) (h8 : i < 8) : (statusWord s).getLsbD i = false := by
  rw [getLsbD_statusWord]
  grind

/-- ERRCODE has bits 15:8 to itself. -/
theorem getLsbD_statusWord_errcode (s : State) {i : Nat} (h : i < 8) :
    (statusWord s).getLsbD (8 + i) = (errBits s.errcode).getLsbD i := by
  rw [getLsbD_statusWord]
  grind

/-- PHASE has every bit from 16 up to itself. -/
theorem getLsbD_statusWord_phase (s : State) (i : Nat) : (statusWord s).getLsbD (16 + i) = (phaseBits s.phase).getLsbD i := by
  rw [getLsbD_statusWord, (errBits s.errcode).getLsbD_of_ge (16 + i - 8) (by omega)]
  grind

theorem extractLsb'_eq_of_getLsbD {n k : Nat} {w : Word} {x : BitVec n} (h : ∀ i < n, w.getLsbD (k + i) = x.getLsbD i) :
    w.extractLsb' k n = x := by
  apply BitVec.eq_of_getLsbD_eq
  intro i hi
  rw [BitVec.getLsbD_extractLsb', h i hi]
  simp [hi]

/-- Settles O43: each field and each reserved range, read off the bits of STATUS; the two code tables by evaluation. -/
theorem statusFieldsAreInPlace : Obligations.StatusFieldsAreInPlace := by
  unfold Obligations.StatusFieldsAreInPlace
  refine ⟨fun s => ⟨?_, ?_, ?_, getLsbD_statusWord_hwAvail s, ?_, ?_, ?_, ?_, ?_, ?_⟩, rfl, rfl⟩
  case refine_1 | refine_2 | refine_3 | refine_4 => rw [getLsbD_statusWord]; simp
  all_goals refine extractLsb'_eq_of_getLsbD fun i hi => ?_
  case refine_5 => rw [getLsbD_statusWord_reserved s (by omega) (by omega), BitVec.getLsbD_zero]
  case refine_6 => exact getLsbD_statusWord_errcode s (by omega)
  case refine_7 =>
    rw [show 12 + i = 8 + (4 + i) by omega, getLsbD_statusWord_errcode s (by omega), BitVec.getLsbD_of_ge _ _ (by omega),
      BitVec.getLsbD_zero]
  case refine_8 => exact getLsbD_statusWord_phase s i
  case refine_9 =>
    rw [show 19 + i = 16 + (3 + i) by omega, getLsbD_statusWord_phase, BitVec.getLsbD_of_ge _ _ (by omega), BitVec.getLsbD_zero]

/-! ## Reset -/

/-- At reset every field of STATUS but HW_AVAIL is 0. -/
theorem statusWord_reset : statusWord State.reset = (BitVec.ofBool Config.hwPresent).setWidth 32 <<< 3 := by
  apply BitVec.eq_of_getLsbD_eq
  intro i _
  rw [getLsbD_statusWord, ← flagBit, getLsbD_flagBit _ (by decide)]
  simp [State.reset, phaseBits, errBits]

/-- Settles O55: the fields of State.reset, and STATUS at reset. -/
theorem resetValues : Obligations.ResetValues := by
  unfold Obligations.ResetValues
  exact ⟨rfl, rfl, rfl, rfl, rfl, rfl, rfl, rfl, rfl, rfl, rfl, rfl, rfl, statusWord_reset⟩

/-! ## The TABLE window -/

/-- No sum in the offset of T[j][i] wraps. -/
theorem Reg.toNat_offset_table (j : BitVec 3) (i : Byte) :
    (Reg.table j i).offset.toNat = 0x1000 + 0x400 * j.toNat + 4 * i.toNat := by
  have hj := j.isLt
  have hi := i.isLt
  show (0x1000#64 + 0x400#64 * j.setWidth 64 + 4#64 * i.setWidth 64).toNat = _
  simp only [BitVec.toNat_add, BitVec.toNat_mul, BitVec.toNat_ofNat, BitVec.toNat_setWidth]
  omega

/-- From 0x1000 up every offset names an entry: row and column are fields of the offset in the window (10_state.md R35). -/
theorem Reg.ofOffset_of_le {off : DWord} (h : 0x1000 ≤ off.toNat) :
    Reg.ofOffset off = .table ((off - 0x1000#64).extractLsb' 10 3) ((off - 0x1000#64).extractLsb' 2 8) := by
  unfold Reg.ofOffset
  split
  case h_13 => exact if_neg (by omega)
  all_goals omega

theorem Reg.ofOffset_offset_table (j : BitVec 3) (i : Byte) : Reg.ofOffset (Reg.table j i).offset = .table j i := by
  have hoff := Reg.toNat_offset_table j i
  have hj := j.isLt
  have hi := i.isLt
  have hsub : ((Reg.table j i).offset - 0x1000#64).toNat = 0x400 * j.toNat + 4 * i.toNat := by
    rw [BitVec.toNat_sub_of_le (by rw [BitVec.le_def, hoff, BitVec.toNat_ofNat]; omega), hoff, BitVec.toNat_ofNat]
    omega
  rw [Reg.ofOffset_of_le (by omega)]
  congr 1 <;> apply BitVec.eq_of_toNat_eq <;> rw [BitVec.extractLsb'_toNat, hsub, Nat.shiftRight_eq_div_pow] <;> omega

/-- A read the port carries, in the window and aligned, answers the register's value (43_host_access_and_control.md R201). -/
theorem hostAccess_read {off : DWord} {s : State} {v : Word} (hw : off.toNat < 0x3000) (hl : off.toNat % 4 = 0)
    (h : readRegister s (Reg.ofOffset off) = some v) : hostAccess ⟨off, .w32, .read⟩ s = .next (respond (.value v) s) := by
  simp [hostAccess, HostAccess.inWindow, HostAccess.legal, hw, hl, h]

/-- A write the port carries, in the window and aligned, is answered and reaches the register (43_host_access_and_control.md R202). -/
theorem hostAccess_write {off : DWord} (hw : off.toNat < 0x3000) (hl : off.toNat % 4 = 0) (v : Word) (s : State) :
    hostAccess ⟨off, .w32, .write v⟩ s = writeRegister (Reg.ofOffset off) v (respond .done s) := by
  simp [hostAccess, HostAccess.inWindow, HostAccess.legal, hw, hl]

theorem step_of_inputs_cons {s : State} {i : Input} {rest : List Input} (h : s.inputs = i :: rest) :
    step s = inputStep i s.popped := by
  simp [step, State.popped, h]

/-- Settles O41: the offset names the entry, so a read answers it while the table is valid, and a write has no register to reach. -/
theorem tableWindowShowsTheTable : Obligations.TableWindowShowsTheTable := by
  unfold Obligations.TableWindowShowsTheTable
  intro j i
  have hoff := Reg.toNat_offset_table j i
  have hj := j.isLt
  have hi := i.isLt
  refine ⟨hoff, fun s rest => ⟨fun hv hs => ?_, fun v hs => ?_⟩⟩ <;> rw [step_of_inputs_cons hs]
  · refine hostAccess_read (by omega) (by omega) ?_
    rw [Reg.ofOffset_offset_table]
    exact if_pos hv
  · refine (hostAccess_write (by omega) (by omega) v s.popped).trans ?_
    rw [Reg.ofOffset_offset_table]
    rfl

end Sys2Proof.Machine
end

section
/-! PROOF. Frames: what each command leaves unchanged, and which moves may write HW_AVAIL, the error state, RESULT and ACC_VALID
(10_state.md R31, R39, R42, R44, R49). -/

namespace Sys2Proof.Machine

/-! ## The commands -/

/-- Raising an error writes the error state and the ghost FAULTED alone (60_exceptions.md R224). -/
theorem raiseFor_frame (e : ErrCode) (i : Instr) (s : State) :
    raiseFor e i s = { s with
      errcode := (raiseFor e i s).errcode, errovf := (raiseFor e i s).errovf, errinfo := (raiseFor e i s).errinfo
      faulted := (raiseFor e i s).faulted } := by
  unfold raiseFor raiseForWord recordError
  split <;> rfl

/-- Settles O50: each outcome of an issue rule writes only the command's own registers. -/
theorem commandsChangeOnlyTheirRegisters : Obligations.CommandsChangeOnlyTheirRegisters := by
  unfold Obligations.CommandsChangeOnlyTheirRegisters
  intro s t
  refine ⟨?tblgen, ?clrerr, ?init, fun h => h.elim ?byte ?fold8, ?final, ?software, ?hardware, fun i a h => ?memory⟩
  case tblgen | clrerr | init =>
    rintro ⟨⟩
    rfl
  case byte | fold8 | final | software | hardware =>
    intro h
    cases issued_of_exec h with
    | raised he => rw [raiseFor_frame]
    | _ => rfl
  case memory => rw [mem_of_issued (issued_of_exec h)]

/-! ## HW_AVAIL -/

section hwAvail
variable {s t : State} {i : Instr}

theorem hwAvail_of_issued (h : Issued s i t) : t.hwAvail = s.hwAvail := by
  cases h with
  | raised he => exact recordError_hwAvail s _ _
  | _ => rfl

theorem hwAvail_of_engined (h : Engined s t) : t.hwAvail = s.hwAvail := by
  cases h <;> simp [State.consumed]

theorem hwAvail_of_stepped (h : Stepped s t) (hn : s.nextIsReset = false) : t.hwAvail = s.hwAvail := by
  cases h with
  | quiet h hm => exact (congrArg State.hwAvail h :)
  | engine _ hb h => exact hwAvail_of_engined (s := s.popped) h
  | whileBusy w _ hb => exact recordError_hwAvail s.atCommand _ _
  | illegal w _ hb he hd => exact recordError_hwAvail s.atCommand _ _
  | issued i hc hb he h => exact hwAvail_of_issued (s := s.atCommand) h
  | reset p r f hr => rw [hr] at hn; cases hn
  | _ => rfl

end hwAvail

/-- Settles O53: no move but the reset writes HW_AVAIL, which STATUS shows at bit 3. -/
theorem capabilityFlagIsConstant : Obligations.CapabilityFlagIsConstant := by
  unfold Obligations.CapabilityFlagIsConstant
  intro s t h hn
  have hw := hwAvail_of_stepped (stepped_of_step h) hn
  exact ⟨hw, by rw [getLsbD_statusWord_hwAvail, getLsbD_statusWord_hwAvail, hw]⟩

/-! ## The error state -/

section errorState
variable {s t : State} {i : Instr}

/-- From s to t a recorded error and its information stay, and so does ERROVF = 1 (10_state.md R32, R42). -/
def KeepsError (s t : State) : Prop :=
  (s.errcode ≠ .none → t.errcode = s.errcode ∧ t.errinfo = s.errinfo) ∧ (s.errovf = true → t.errovf = true)

theorem keepsError_of_eq (hc : t.errcode = s.errcode) (hi : t.errinfo = s.errinfo) (ho : t.errovf = s.errovf) : KeepsError s t :=
  ⟨fun _ => ⟨hc, hi⟩, fun h => ho.trans h⟩

theorem keepsError_recordError (e : ErrCode) (info : DWord) (s : State) : KeepsError s (recordError e info s) := by
  by_cases h : s.errcode = .none
  · rw [recordError_of_none h]
    exact ⟨fun hn => absurd h hn, id⟩
  · rw [recordError_of_some h]
    exact ⟨fun _ => ⟨rfl, rfl⟩, fun _ => rfl⟩

theorem keepsError_of_issued (hi : i ≠ .clrerr) (h : Issued s i t) : KeepsError s t := by
  cases h with
  | raised he => exact keepsError_recordError _ _ s
  | clrerr => exact absurd rfl hi
  | _ => exact keepsError_of_eq rfl rfl rfl

theorem keepsError_of_engined (h : Engined s t) : KeepsError s t := by
  cases h with
  | refused h => exact keepsError_recordError .busError s.cur s
  | hwRefused hp hm => exact keepsError_recordError .busError (drawRefused s) s
  | _ => exact keepsError_of_eq (by simp [State.consumed]) (by simp [State.consumed]) (by simp [State.consumed])

theorem keepsError_of_stepped (h : Stepped s t) (hn : s.nextIsReset = false)
    (hclr : ¬(s.busy = false ∧ s.nextIsCommand (encode .clrerr) = true)) : KeepsError s t := by
  cases h with
  | quiet h hm => exact keepsError_of_eq (congrArg State.errcode h :) (congrArg State.errinfo h :) (congrArg State.errovf h :)
  | engine _ hb h => exact keepsError_of_engined (s := s.popped) h
  | whileBusy w _ hb => exact keepsError_recordError _ _ s.atCommand
  | cleared hc hb => exact absurd ⟨hb, hc⟩ hclr
  | discarded w _ hb he hw => exact ⟨fun _ => ⟨rfl, rfl⟩, fun _ => rfl⟩
  | illegal w _ hb he hd => exact keepsError_recordError _ _ s.atCommand
  | issued i hc hb he h =>
    refine keepsError_of_issued (s := s.atCommand) ?_ h
    rintro rfl
    exact hclr ⟨hb, hc⟩
  | reset p r f hr => rw [hr] at hn; cases hn

end errorState

/-- Settles O48: every outcome of a step but the reset's and CLRERR's keeps a recorded error. -/
theorem errorStateClearedOnlyByClrerrOrReset : Obligations.ErrorStateClearedOnlyByClrerrOrReset := by
  unfold Obligations.ErrorStateClearedOnlyByClrerrOrReset
  intro s t h hn hclr
  have hw : encode .clrerr = 0x00000002#32 := by decide
  exact keepsError_of_stepped (stepped_of_step h) hn (hw ▸ hclr)

/-! ## RESULT -/

section result
variable {s t : State} {i : Instr}

/-- A step from s to t records an error or sets ERROVF. -/
def RaisesError (s t : State) : Prop := (s.errcode = .none ∧ t.errcode ≠ .none) ∨ (s.errovf = false ∧ t.errovf = true)

theorem not_raisesError (hc : t.errcode = s.errcode ∨ t.errcode = .none) (ho : t.errovf = s.errovf ∨ t.errovf = false) :
    ¬RaisesError s t := by
  rintro (⟨h, h'⟩ | ⟨h, h'⟩)
  · obtain hc | hc := hc
    · exact h' (hc.trans h)
    · exact h' hc
  · obtain ho | ho := ho <;> simp_all

/-- An issue rule keeps RESULT, or is that of FINAL or of a COMPUTE of an empty buffer, which ends at once without an error
(41_accumulator_ops.md R141; 42_compute_dispatch.md R163). -/
theorem result_of_issued (h : Issued s i t) :
    t.result = s.result ∨
      ((i = .final ∨ i = .computeSw ∨ i = .computeHw) ∧ t.busy = s.busy ∧ t.errcode = s.errcode ∧ t.errovf = s.errovf) := by
  cases h with
  | raised he => exact .inl (recordError_result s _ _)
  | final hv => exact .inr ⟨.inl rfl, rfl, rfl, rfl⟩
  | emptySoftware => exact .inr ⟨.inr (.inl rfl), rfl, rfl, rfl⟩
  | emptyHardware => exact .inr ⟨.inr (.inr rfl), rfl, rfl, rfl⟩
  | _ => exact .inl rfl

/-- An engine step keeps RESULT, or is the last of a COMPUTE, which raises no error (42_compute_dispatch.md R168, R173). -/
theorem result_of_engined (h : Engined s t) :
    t.result = s.result ∨
      ((s.phase = .finish ∨ s.phase = .hwrun) ∧ t.busy = false ∧ t.errcode = s.errcode ∧ t.errovf = s.errovf) := by
  cases h with
  | finish hp => exact .inr ⟨.inl hp, rfl, by simp, by simp⟩
  | hwrun hp bs hm => exact .inr ⟨.inr hp, rfl, by simp, by simp⟩
  | _ => exact .inl (by simp [State.consumed])

/-- A step that may change RESULT: the reset, a command that completes with a result, or the last engine step of a COMPUTE
(10_state.md R31). -/
def DeliversResult (s t : State) : Prop :=
  s.nextIsReset = true ∨
  (s.busy = false ∧ s.errcode = .none ∧ t.errcode = .none ∧ t.busy = false ∧
    ∃ i, (i = .final ∨ i = .computeSw ∨ i = .computeHw) ∧ s.nextIsCommand (encode i) = true) ∨
  (s.nextIsEngine = true ∧ s.busy = true ∧ t.busy = false ∧ (s.phase = .finish ∨ s.phase = .hwrun))

/-- Every step keeps RESULT, or delivers one and raises no error (10_state.md R31; 60_exceptions.md R220). -/
theorem result_of_stepped (h : Stepped s t) : t.result = s.result ∨ (DeliversResult s t ∧ ¬RaisesError s t) := by
  cases h with
  | quiet h hm => exact .inl (congrArg State.result h :)
  | engine hn hb h =>
    refine (result_of_engined h).imp_right fun ⟨hp, hb', hc, ho⟩ => ?_
    exact ⟨.inr (.inr ⟨hn, hb, hb', hp⟩), not_raisesError (.inl hc) (.inl ho)⟩
  | whileBusy w _ hb => exact .inl (recordError_result s.atCommand _ _)
  | cleared hc hb => exact .inl rfl
  | discarded w _ hb he hw => exact .inl rfl
  | illegal w _ hb he hd => exact .inl (recordError_result s.atCommand _ _)
  | issued i hn hb he h =>
    refine (result_of_issued (s := s.atCommand) h).imp_right fun ⟨hi, hb', hc, ho⟩ => ?_
    exact ⟨.inr (.inl ⟨hb, he, hc.trans he, hb'.trans hb, i, hi, hn⟩), not_raisesError (.inl hc) (.inl ho)⟩
  | reset p r f hr => exact .inr ⟨.inl hr, not_raisesError (.inr rfl) (.inr rfl)⟩

/-- On the engine's turn a step is an engine turn. -/
theorem step_of_nextIsEngine (hn : s.nextIsEngine = true) : step s = engineTurn s.popped := by
  unfold State.nextIsEngine at hn
  split at hn
  · rename_i hi
    simp only [step, hi]
    congr 1
    cases s
    simp_all [State.popped]
  · rename_i hi
    simp [step, inputStep, State.popped, hi]
  · cases hn

/-- A refused byte ends the hardware path with RESULT as it was (42_compute_dispatch.md R173, R174). -/
theorem result_of_refused_hwrun (h : Engined s t) (hp : s.phase = .hwrun)
    (hr : ∃ k, k < s.rem.toNat ∧ s.mem.readable (s.cur + BitVec.ofNat 64 k) = false) : t.result = s.result := by
  have hnone := (s.mem.readRange_eq_none_iff_exists s.cur s.rem.toNat).mpr hr
  cases h with
  | finish hp' => rw [hp] at hp'; cases hp'
  | hwrun _ bs hm => rw [hnone] at hm; cases hm
  | _ => simp [State.consumed]

end result

/-- Settles O49: of the outcomes of a step only those that deliver a result change it, and a refused HWRUN read is none of them. -/
theorem resultChangesOnlyOnCompletion : Obligations.ResultChangesOnlyOnCompletion := by
  unfold Obligations.ResultChangesOnlyOnCompletion
  intro s t h
  have hres := result_of_stepped (stepped_of_step h)
  refine ⟨fun hne => (hres.resolve_left hne).1, fun hraise => hres.resolve_right fun hd => hd.2 hraise, fun hn hb hp hr => ?_⟩
  rw [step_of_nextIsEngine hn, engineTurn, if_pos (show s.popped.busy = true from hb)] at h
  exact result_of_refused_hwrun (s := s.popped) (engined_of_engineStep h) hp hr

/-! ## ACC_VALID -/

section accValid
variable {s t : State} {i : Instr}

/-- An issue rule keeps ACC_VALID, or sets it in INIT or in a COMPUTE.SW with LEN not 0 (10_state.md R39). -/
theorem accValid_of_issued (h : Issued s i t) :
    t.accValid = s.accValid ∨ (t.accValid = true ∧ (i = .init ∨ (i = .computeSw ∧ s.len ≠ 0#32))) := by
  cases h with
  | raised he => exact .inl (recordError_accValid s _ _)
  | init => exact .inr ⟨rfl, .inl rfl⟩
  | software hr hl ht => exact .inr ⟨rfl, .inr ⟨rfl, hl⟩⟩
  | _ => exact .inl rfl

/-- The first error a refused read meets is recorded with CUR, a later one sets ERROVF (42_compute_dispatch.md R169). -/
theorem abortSoftware_error (s : State) :
    (s.errcode = .none → (abortSoftware s).errcode = .busError ∧ (abortSoftware s).errinfo = s.cur) ∧
      (s.errcode ≠ .none → (abortSoftware s).errovf = true) := by
  constructor <;> intro h
  · simp [abortSoftware, endLong, recordError_of_none h]
  · simp [abortSoftware, endLong, recordError_of_some h]

/-- The engine step from s to t is the software path's abort (42_compute_dispatch.md R169). -/
def AbortsSoftware (s t : State) : Prop :=
  t.accValid = false ∧ t.busy = false ∧ t.faulted = true ∧ readRefused s ∧
    (s.errcode = .none → t.errcode = .busError ∧ t.errinfo = s.cur) ∧ (s.errcode ≠ .none → t.errovf = true)

theorem accValid_of_engined (h : Engined s t) : t.accValid = s.accValid ∨ AbortsSoftware s t := by
  cases h with
  | refused hr => exact .inr ⟨rfl, rfl, recordError_faulted s _ _, hr, abortSoftware_error s⟩
  | _ => exact .inl (by simp [State.consumed])

/-- Every step keeps ACC_VALID, sets it by INIT or COMPUTE.SW, or clears it by a refused software read or the reset
(10_state.md R39, R44). -/
theorem accValid_of_stepped (h : Stepped s t) :
    t.accValid = s.accValid ∨
      (t.accValid = true ∧
        (s.nextIsCommand (encode .init) = true ∨ (s.nextIsCommand (encode .computeSw) = true ∧ s.len ≠ 0#32))) ∨
      (t.accValid = false ∧ (s.nextIsReset = true ∨ (s.nextIsEngine = true ∧ s.busy = true ∧ AbortsSoftware s t))) := by
  cases h with
  | quiet h hm => exact .inl (congrArg State.accValid h :)
  | engine hn hb h =>
    exact (accValid_of_engined (s := s.popped) h).imp_right fun ha => .inr ⟨ha.1, .inr ⟨hn, hb, ha⟩⟩
  | whileBusy w _ hb => exact .inl (recordError_accValid s.atCommand _ _)
  | illegal w _ hb he hd => exact .inl (recordError_accValid s.atCommand _ _)
  | issued i hc hb he h =>
    refine (accValid_of_issued (s := s.atCommand) h).imp_right fun ⟨hv, hi⟩ => .inl ⟨hv, ?_⟩
    obtain rfl | ⟨rfl, hl⟩ := hi
    · exact .inl hc
    · exact .inr ⟨hc, hl⟩
  | reset p r f hr => exact .inr (.inr ⟨rfl, .inl hr⟩)
  | _ => exact .inl rfl

end accValid

/-- Settles O54: the outcomes of a step that set ACC_VALID, and those that clear it. -/
theorem accValidChangesOnlyAsSummarised : Obligations.AccValidChangesOnlyAsSummarised := by
  unfold Obligations.AccValidChangesOnlyAsSummarised
  intro s t h
  have hav := accValid_of_stepped (stepped_of_step h)
  constructor <;> intro hs ht <;> rw [hs, ht] at hav
  · obtain h | ⟨-, h⟩ | ⟨h, -⟩ := hav
    · cases h
    · exact h
    · cases h
  · obtain h | ⟨h, -⟩ | ⟨-, h⟩ := hav
    · cases h
    · cases h
    · exact h.imp_right fun ⟨hn, hb, _, hb', hf, hrr, herr⟩ => ⟨hn, hb, hb', hf, hrr, herr⟩

end Sys2Proof.Machine
end

section
/-! PROOF. Buffer memory: the 8-byte read (20_memory.md R63, R83), who writes memory (R62), and a write into the buffer of a
running COMPUTE (R77). -/

namespace Sys2Proof.Machine

/-! ## Bytes held and ranges read -/

section reads
variable {m : Memory} {a w : DWord}

/-- Bytes are held at a when the first is read there and the others are held one address up. -/
theorem Memory.holds_cons {b : Byte} {bs : List Byte} :
    m.holds a (b :: bs) ↔ m.read a = some b ∧ m.holds (a + 1#64) bs := by
  unfold Memory.holds
  rw [List.length_cons, Nat.forall_lt_succ_left]
  refine and_congr ?_ (forall₂_congr fun k _ => ?_)
  · simp
  · rw [List.getElem?_cons_succ, Nat.add_comm k 1, BitVec.ofNat_add, BitVec.add_assoc]

/-- A range read answers exactly the bytes memory holds there. -/
theorem Memory.readRange_length_eq_some_iff {bs : List Byte} : m.readRange a bs.length = some bs ↔ m.holds a bs := by
  induction bs generalizing a with
  | nil => simp [Memory.readRange, Memory.holds]
  | cons b bs ih =>
    rw [Memory.holds_cons, ← ih, List.length_cons, Memory.readRange]
    cases m.read a <;> cases m.readRange (a + 1#64) bs.length <;> simp

theorem Memory.holds_of_readRange {n : Nat} {bs : List Byte} (h : m.readRange a n = some bs) : m.holds a bs := by
  obtain rfl := Memory.readRange_length h
  exact Memory.readRange_length_eq_some_iff.mp h

theorem Memory.read8_eq_some_iff :
    m.read8 a = some w ↔ ∃ bs, m.readRange a 8 = some bs ∧ BitVec.ofNat 64 (littleEndian bs) = w := by
  unfold Memory.read8
  cases m.readRange a 8 <;> simp

/-- A byte joined below a word is the least significant of the value. -/
theorem toNat_append_byte {n : Nat} (x : BitVec n) (b : Byte) : (x ++ b).toNat = b.toNat + 256 * x.toNat := by
  rw [BitVec.toNat_append, ← Nat.shiftLeft_add_eq_or_of_lt b.isLt, Nat.shiftLeft_eq]
  omega

/-- Eight bytes joined, the last of the list the most significant, are their little-endian value (20_memory.md R63). -/
theorem ofNat_littleEndian_eq_append (b0 b1 b2 b3 b4 b5 b6 b7 : Byte) :
    BitVec.ofNat 64 (littleEndian [b0, b1, b2, b3, b4, b5, b6, b7]) = b7 ++ b6 ++ b5 ++ b4 ++ b3 ++ b2 ++ b1 ++ b0 := by
  have hval : (b7 ++ b6 ++ b5 ++ b4 ++ b3 ++ b2 ++ b1 ++ b0).toNat = littleEndian [b0, b1, b2, b3, b4, b5, b6, b7] := by
    simp only [toNat_append_byte, littleEndian, Nat.mul_zero, Nat.add_zero]
  rw [← hval, BitVec.ofNat_toNat]
  exact BitVec.setWidth_eq _

/-- Where memory holds eight bytes, the 8-byte read joins them (20_memory.md R63). -/
theorem Memory.read8_of_holds {b0 b1 b2 b3 b4 b5 b6 b7 : Byte} (h : m.holds a [b0, b1, b2, b3, b4, b5, b6, b7]) :
    m.read8 a = some (b7 ++ b6 ++ b5 ++ b4 ++ b3 ++ b2 ++ b1 ++ b0) :=
  Memory.read8_eq_some_iff.mpr ⟨_, Memory.readRange_length_eq_some_iff.mpr h, ofNat_littleEndian_eq_append ..⟩

/-- byte_k of an admitted 8-byte read is what a read of address a + k answers (20_memory.md R63). -/
theorem Memory.read_of_read8 (h : m.read8 a = some w) {k : Nat} (hk : k < 8) :
    m.read (a + BitVec.ofNat 64 k) = some (byteOf k w) := by
  obtain ⟨bs, hbs, -⟩ := Memory.read8_eq_some_iff.mp h
  have hlen : k < bs.length := by rw [Memory.readRange_length hbs]; exact hk
  rw [Memory.holds_of_readRange hbs k hlen, byteOf_read8 hbs h k]
  simp [hlen]

/-- An 8-byte read is admitted exactly when each of its bytes is (20_memory.md R83). -/
theorem Memory.isSome_read8_iff : (m.read8 a).isSome = true ↔ ∀ k, k < 8 → m.readable (a + BitVec.ofNat 64 k) = true := by
  rw [← Option.ne_none_iff_isSome, ne_eq, m.read8_eq_none_iff_exists]
  simp

end reads

/-- Settles O25: the range read answers the bytes held, whose little-endian value is the eight bytes joined. -/
theorem wideReadIsLittleEndian : Obligations.WideReadIsLittleEndian := by
  unfold Obligations.WideReadIsLittleEndian
  exact ⟨fun _ _ _ _ _ _ _ _ _ _ => Memory.read8_of_holds, fun _ _ _ h _ => Memory.read_of_read8 h,
    fun _ _ => Memory.isSome_read8_iff⟩

/-! ## Who writes memory -/

section mem
variable {s t : State}

theorem mem_of_submitCommand {w : Word} (h : submitCommand w s = .next t) : t.mem = s.mem := by
  obtain ⟨-, rfl⟩ | ⟨-, -, -, rfl⟩ | ⟨-, -, -, rfl⟩ | ⟨-, -, -, rfl⟩ | ⟨-, -, i, -, hx⟩ := submitCommand_next h
  · exact recordError_mem s _ _
  · rfl
  · rfl
  · exact recordError_mem s _ _
  · exact mem_of_issued (issued_of_exec hx)

theorem mem_of_hostAccess {a : HostAccess} (h : hostAccess a s = .next t) : t.mem = s.mem := by
  obtain rfl | rfl | ⟨v, rfl⟩ | rfl | ⟨v, rfl⟩ | ⟨v, rfl⟩ | ⟨v, rfl⟩ | ⟨v, rfl⟩ | ⟨w, -, hw⟩ := hostAccess_next h
  case inr.inr.inr.inr.inr.inr.inr.inr => exact mem_of_submitCommand (s := respond .done s) hw
  all_goals rfl

theorem mem_of_engineTurn (h : engineTurn s = .next t) : t.mem = s.mem := by
  obtain ⟨-, h⟩ | ⟨-, rfl⟩ := engineTurn_next h
  · exact mem_of_engined (engined_of_engineStep h)
  · rfl

theorem waitPoll_mem (s : State) : (waitPoll s).mem = s.mem := by
  unfold waitPoll
  simp only
  split <;> rfl

/-- A step leaves buffer memory, or is another master's write (20_memory.md R62; 43_host_access_and_control.md R205). -/
theorem mem_of_step (h : step s = .next t) :
    t.mem = s.mem ∨ ∃ a b, s.inputs.head? = some (.bufferWrite a b) ∧ t.mem = s.mem.write a b := by
  obtain ⟨-, h⟩ | ⟨a, -, h⟩ | ⟨-, rfl⟩ | ⟨a, b, hi, rfl⟩ | ⟨p, a, -, rfl⟩ := step_next h
  · exact .inl (mem_of_engineTurn (s := s.popped) h)
  · exact .inl (mem_of_hostAccess (s := s.popped) h)
  · exact .inl (waitPoll_mem s.popped)
  · exact .inr ⟨a, b, hi, rfl⟩
  · exact .inl (resetMove_mem s.popped p a)

theorem nextIsBufferWrite_of_head {a : DWord} {b : Byte} (h : s.inputs.head? = some (.bufferWrite a b)) :
    s.nextIsBufferWrite = true := by
  obtain ⟨rest, hi⟩ := List.head?_eq_some_iff.mp h
  simp [State.nextIsBufferWrite, hi]

theorem mem_of_step_of_not_bufferWrite (h : step s = .next t) (hn : s.nextIsBufferWrite = false) : t.mem = s.mem := by
  refine (mem_of_step h).resolve_right ?_
  rintro ⟨a, b, hi, -⟩
  rw [nextIsBufferWrite_of_head hi] at hn
  cases hn

theorem step_of_bufferWrite {a : DWord} {b : Byte} {rest : List Input} (hi : s.inputs = .bufferWrite a b :: rest) :
    step s = .next (writeBuffer a b s.popped) :=
  step_of_inputs_cons hi

/-- No step of any agent changes which reads memory answers (00_scope.md R10). -/
theorem readable_of_step (h : step s = .next t) (a : DWord) : t.mem.readable a = s.mem.readable a := by
  obtain hm | ⟨a', b, -, hm⟩ := mem_of_step h <;> rw [hm]
  exact s.mem.readable_write a' a b

end mem

/-- Settles O52: of the outcomes of a step only another master's write touches memory, by the laws of Memory.write. -/
theorem blockNeverWritesBufferMemory : Obligations.BlockNeverWritesBufferMemory := by
  unfold Obligations.BlockNeverWritesBufferMemory
  refine ⟨fun s t h hn a => ?_, fun s t a b rest hi h => ?_, fun s t => readable_of_step⟩
  · rw [mem_of_step_of_not_bufferWrite h hn]
    exact ⟨rfl, rfl⟩
  · obtain rfl := Host.Outcome.next.inj ((step_of_bufferWrite hi).symm.trans h)
    exact ⟨s.mem.contents_write_same a b, fun a' ha => ⟨s.mem.contents_write_other ha b, s.mem.read_write_other ha b⟩⟩

/-! ## A write into the buffer of a running COMPUTE -/

section duty
variable {s : State}

theorem inLatchedBuffer_iff (s : State) (a : DWord) :
    inLatchedBuffer s a = true ↔ s.bufAddr.toNat ≤ a.toNat ∧ a.toNat < s.bufAddr.toNat + s.bufLen.toNat := by
  simp [inLatchedBuffer]

/-- In the latched range of a running COMPUTE a write changes its byte and breaks the host's duty (20_memory.md R77). -/
theorem writeBuffer_of_running {a : DWord} (hb : s.busy = true) (hp : s.phase ≠ .tblgen) (ha : inLatchedBuffer s a = true)
    (b : Byte) : writeBuffer a b s = { s with mem := s.mem.write a b, dutyBroken := true } := by
  simp [writeBuffer, hb, hp, ha]

theorem step_of_nextIsEngine_of_busy (hn : s.nextIsEngine = true) (hb : s.busy = true) : step s = engineStep s.popped := by
  rw [step_of_nextIsEngine hn]
  exact if_pos hb

theorem engineStep_of_finish (hp : s.phase = .finish) : engineStep s = .next (endLong (deliverResult (finish s.acc) s)) := by
  rw [engineStep, hp]
  rfl

/-- The hardware path over readable bytes delivers their checksum (42_compute_dispatch.md R172, R173). -/
theorem engineStep_of_hwrun {bs : List Byte} (hp : s.phase = .hwrun) (hl : bs.length = s.rem.toNat) (hm : s.mem.holds s.cur bs) :
    engineStep s = .next (endLong (deliverResult (crc32cSpec s.lseed bs) s)) := by
  have hr : s.mem.readRange s.cur s.rem.toNat = some bs := by rw [← hl, Memory.readRange_length_eq_some_iff]; exact hm
  simp [engineStep, hp, hwrunStep, hr]

/-- The last engine step of a COMPUTE that meets no refused byte delivers some value and ends the command
(42_compute_dispatch.md R168, R173). -/
theorem engineStep_completes
    (hp : s.phase = .finish ∨ (s.phase = .hwrun ∧ ∃ bs : List Byte, bs.length = s.rem.toNat ∧ s.mem.holds s.cur bs)) :
    ∃ v, engineStep s = .next (endLong (deliverResult v s)) := by
  obtain hp | ⟨hp, bs, hl, hm⟩ := hp
  · exact ⟨_, engineStep_of_finish hp⟩
  · exact ⟨_, engineStep_of_hwrun hp hl hm⟩

end duty

/-- Settles O38: the write breaks the duty and nothing else; the broken command's last step delivers the free value. -/
theorem brokenBufferDutyFreesOnlyTheResult : Obligations.BrokenBufferDutyFreesOnlyTheResult := by
  unfold Obligations.BrokenBufferDutyFreesOnlyTheResult
  refine ⟨fun s a b rest hi hb hp hlo hhi => ?_, fun s hn hb hd hp => ?_⟩
  · rw [step_of_bufferWrite hi]
    exact congrArg _ (writeBuffer_of_running (s := s.popped) hb hp ((inLatchedBuffer_iff s a).mpr ⟨hlo, hhi⟩) b)
  · obtain ⟨v, hv⟩ := engineStep_completes (s := s.popped) hp
    rw [step_of_nextIsEngine_of_busy hn hb, hv, deliverResult_of_broken (s := s.popped) hd]
    exact ⟨_, rfl, rfl⟩

end Sys2Proof.Machine
end

section
/-! PROOF. The encoding (30_encoding.md): the decoder answers an instruction for its own word alone, a word is the join of its
three fields, and the legal field views are those of the table's rows. -/

namespace Sys2Proof.Machine

/-! ## Words and instructions -/

theorem decode_encode (i : Instr) : decode (encode i) = .ok i := by
  cases i <;> rfl

/-- Exact match (30_encoding.md R94): a word decodes to the one instruction whose word it is. -/
theorem decode_eq_ok_iff {w : Word} {i : Instr} : decode w = .ok i ↔ encode i = w := by
  constructor
  · exact encode_of_decode_eq_ok
  · rintro rfl
    exact decode_encode i

/-- The decoder has one error, so it is total (30_encoding.md R94, R96). -/
theorem decode_eq_illegal_iff {w : Word} : decode w = .error .illegal ↔ ∀ i, decode w ≠ .ok i := by
  cases h : decode w with
  | error e => cases e; simp
  | ok i => simp

/-- The whole 32-bit word, numbered as the opcode table numbers it, gives its instruction. -/
theorem decodeTableWord_encode (i : Instr) : decodeTableWord 32 (encode i).toNat = some i := by
  have hlt : (encode i).toNat % 2 ^ 32 = (encode i).toNat := Nat.mod_eq_of_lt (encode i).isLt
  rw [decodeTableWord, hlt, if_pos (encode i).isLt, BitVec.ofNat_toNat, BitVec.setWidth_eq, decode_encode]

/-- The rows of the command table (30_encoding.md R93). -/
def commandTable : List (Word × Instr) :=
  [(0x00000001#32, .tblgen), (0x00000002#32, .clrerr), (0x00000010#32, .init), (0x00000011#32, .byte),
    (0x00000012#32, .fold8), (0x00000013#32, .final), (0x00000020#32, .computeSw), (0x00000120#32, .computeHw)]

theorem mem_commandTable_iff {w : Word} {i : Instr} : (w, i) ∈ commandTable ↔ encode i = w := by
  constructor
  · have hrows : ∀ row ∈ commandTable, encode row.2 = row.1 := by decide
    exact hrows (w, i)
  · rintro rfl
    cases i <;> decide

/-! ## Words and fields -/

/-- Bit by bit, a word is OP below bit 8, HW at bit 8 and RSV above (30_encoding.md R90). -/
theorem Cmd32.getLsbD_toWord (c : Cmd32) (i : Nat) :
    c.toWord.getLsbD i = if i < 8 then c.op.getLsbD i else if i = 8 then c.hw else c.rsv.getLsbD (i - 9) := by
  simp only [Cmd32.toWord, BitVec.getLsbD_append]
  split
  · rfl
  · split
    · have : i = 8 := by omega
      simp [this]
    · rw [if_neg (by omega), show i - 8 - 1 = i - 9 by omega]

theorem Cmd32.ofWord_toWord (c : Cmd32) : Cmd32.ofWord c.toWord = c := by
  have hop : c.toWord.extractLsb' 0 8 = c.op :=
    extractLsb'_eq_of_getLsbD fun i hi => by simp [Cmd32.getLsbD_toWord, hi]
  have hhw : c.toWord.getLsbD 8 = c.hw := by
    rw [Cmd32.getLsbD_toWord, if_neg (by decide), if_pos rfl]
  have hrsv : c.toWord.extractLsb' 9 23 = c.rsv :=
    extractLsb'_eq_of_getLsbD fun i _ => by
      rw [Cmd32.getLsbD_toWord, if_neg (by omega), if_neg (by omega), Nat.add_sub_cancel_left]
  rw [Cmd32.ofWord, hop, hhw, hrsv]

theorem Cmd32.toWord_ofWord (w : Word) : (Cmd32.ofWord w).toWord = w := by
  apply BitVec.eq_of_getLsbD_eq
  intro i hi
  rw [Cmd32.getLsbD_toWord]
  split
  · simp [Cmd32.ofWord, *]
  · split
    · simp [Cmd32.ofWord, *]
    · rename_i h8 h9
      simp only [Cmd32.ofWord, BitVec.getLsbD_extractLsb', show 9 + (i - 9) = i by omega, show i - 9 < 23 by omega,
        decide_true, Bool.true_and]

/-! ## Fields and instructions -/

/-- Per instruction, its word holds its fields and they are legal (30_encoding.md R90, R95). -/
theorem encoding_statement (i : Instr) : Laws.Encoding.Statement i := by
  cases i
  · exact Laws.Encoding.tblgen
  · exact Laws.Encoding.clrerr
  · exact Laws.Encoding.init
  · exact Laws.Encoding.byte
  · exact Laws.Encoding.fold8
  · exact Laws.Encoding.final
  · exact Laws.Encoding.computeSw
  · exact Laws.Encoding.computeHw

/-- R95's three conditions on the fields of a legal command. -/
theorem Cmd32.wellFormed_iff (c : Cmd32) :
    c.wellFormed = true ↔
      c.op ∈ [0x01#8, 0x02#8, 0x10#8, 0x11#8, 0x12#8, 0x13#8, 0x20#8] ∧ (c.hw = true → c.op = 0x20#8) ∧ c.rsv = 0#23 := by
  cases h : c.hw <;> simp [Cmd32.wellFormed, Cmd32.opAssigned, Cmd32.hwLegal, Cmd32.rsvClear, h, or_assoc, and_assoc]

/-- The legal field views are the rows of the table: with HW = 0 one per OP, with HW = 1 the one of OP = 0x20. -/
theorem Cmd32.exists_fields_of_wellFormed {c : Cmd32} (h : c.wellFormed = true) : ∃ i : Instr, i.fields = c := by
  obtain ⟨op, hw, rsv⟩ := c
  obtain ⟨hop, hhw, hrsv⟩ := (Cmd32.wellFormed_iff _).mp h
  dsimp only at hop hhw hrsv
  subst hrsv
  cases hw with
  | true =>
    rw [hhw rfl]
    exact ⟨.computeHw, rfl⟩
  | false =>
    simp only [List.mem_cons, List.not_mem_nil, or_false] at hop
    obtain rfl | rfl | rfl | rfl | rfl | rfl | rfl := hop
    · exact ⟨.tblgen, rfl⟩
    · exact ⟨.clrerr, rfl⟩
    · exact ⟨.init, rfl⟩
    · exact ⟨.byte, rfl⟩
    · exact ⟨.fold8, rfl⟩
    · exact ⟨.final, rfl⟩
    · exact ⟨.computeSw, rfl⟩

/-- A word is a command exactly when its fields are legal (30_encoding.md R93, R95). -/
theorem exists_decode_eq_ok_iff (w : Word) : (∃ i, decode w = .ok i) ↔ (Cmd32.ofWord w).wellFormed = true := by
  constructor
  · rintro ⟨i, hi⟩
    obtain ⟨hfields, hwf⟩ := encoding_statement i
    rw [← decode_eq_ok_iff.mp hi, hfields, hwf]
  · intro h
    obtain ⟨i, hi⟩ := Cmd32.exists_fields_of_wellFormed h
    exact ⟨i, decode_eq_ok_iff.mpr (by rw [encode, hi, Cmd32.toWord_ofWord])⟩

/-- R95: a word is illegal exactly when one of the three conditions on its fields fails. -/
theorem decode_eq_illegal_iff_fields (w : Word) :
    decode w = .error .illegal ↔
      (w.extractLsb' 0 8 ∉ [0x01#8, 0x02#8, 0x10#8, 0x11#8, 0x12#8, 0x13#8, 0x20#8] ∨ w.extractLsb' 9 23 ≠ 0#23 ∨
        (w.getLsbD 8 = true ∧ w.extractLsb' 0 8 ≠ 0x20#8)) := by
  rw [decode_eq_illegal_iff, ← not_exists, exists_decode_eq_ok_iff, Cmd32.wellFormed_iff, Cmd32.ofWord]
  tauto

/-! ## A CMD write -/

section submit
variable {s : State} {w : Word}

theorem submitCommand_of_busy (hb : s.busy = true) (w : Word) : submitCommand w s = .next (raiseForWord .cmdWhileBusy w s) :=
  if_pos hb

/-- While an error is recorded every word but CLRERR's sets ERROVF alone (60_exceptions.md R226). -/
theorem submitCommand_of_error (hb : s.busy = false) (he : s.errcode ≠ .none) (hw : w ≠ 0x00000002#32) :
    submitCommand w s = .next { s with errovf := true } := by
  simp [submitCommand, hb, he, hw]

/-- An idle block with no error recorded runs the word (60_exceptions.md R225). -/
theorem submitCommand_of_idle (hb : s.busy = false) (he : s.errcode = .none) : submitCommand w s = runWord w s := by
  simp [submitCommand, hb, he]

theorem runWord_of_illegal (hd : decode w = .error .illegal) : runWord w s = .next (raiseForWord .illegalCmd w s) := by
  simp [runWord, hd]

theorem runWord_encode (i : Instr) (s : State) : runWord (encode i) s = exec i s := by
  simp [runWord, decode_encode]

theorem inputs_of_nextIsCommand (h : s.nextIsCommand w = true) :
    ∃ rest, s.inputs = .host (HostAccess.wr .cmd w) :: rest := by
  unfold State.nextIsCommand at h
  split at h
  · rename_i a rest hi
    exact ⟨rest, by rw [hi, of_decide_eq_true h]⟩
  · cases h

/-- A host write of a word to CMD submits it, once the port has answered (43_host_access_and_control.md R202). -/
theorem step_of_nextIsCommand (h : s.nextIsCommand w = true) : step s = submitCommand w s.atCommand := by
  obtain ⟨rest, hi⟩ := inputs_of_nextIsCommand h
  rw [step_of_inputs_cons hi]
  exact hostAccess_write (off := Reg.offset .cmd) (by decide) (by decide) w s.popped

end submit

/-! ## The obligations -/

/-- Settles O3: the fields and the word are the same bits, and the legal field views are the rows of the table. -/
theorem decodeAndEncodeAgree : Obligations.DecodeAndEncodeAgree := by
  unfold Obligations.DecodeAndEncodeAgree
  refine ⟨fun i _ => ?_, fun w i => encode_of_decode_eq_ok, Cmd32.ofWord_toWord, Cmd32.toWord_ofWord, exists_decode_eq_ok_iff⟩
  obtain ⟨hfields, hwf⟩ := encoding_statement i
  exact ⟨decode_encode i, hfields, hwf, decodeTableWord_encode i⟩

/-- Settles O1: the decoder is the table's inverse, and the acceptance checks come before it. -/
theorem decodeIsExactMatchAfterAcceptance : Obligations.DecodeIsExactMatchAfterAcceptance := by
  unfold Obligations.DecodeIsExactMatchAfterAcceptance
  exact ⟨fun _ _ => decode_eq_ok_iff.trans mem_commandTable_iff.symm, fun _ => decode_eq_illegal_iff.mpr,
    fun w _ => ⟨fun hb => submitCommand_of_busy hb w, submitCommand_of_error⟩⟩

/-- Settles O2: the illegal words are those whose fields are not legal, and an accepted one records ILLEGAL_CMD alone. -/
theorem illegalWordsRaiseIllegalCmd : Obligations.IllegalWordsRaiseIllegalCmd := by
  unfold Obligations.IllegalWordsRaiseIllegalCmd
  refine ⟨decode_eq_illegal_iff_fields, rfl, fun w s hc hb he hd => ?_⟩
  rw [step_of_nextIsCommand hc, submitCommand_of_idle (s := s.atCommand) hb he, runWord_of_illegal hd, raiseForWord,
    recordError_of_none (s := s.atCommand) he]
  rfl

/-- Settles O4: each word is the one its instruction encodes to. -/
theorem tableWordsDecode : Obligations.TableWordsDecode := by
  unfold Obligations.TableWordsDecode
  exact ⟨decode_encode .tblgen, decode_encode .clrerr, decode_encode .init, decode_encode .byte, decode_encode .fold8,
    decode_encode .final, decode_encode .computeSw, decode_encode .computeHw⟩

end Sys2Proof.Machine
end

section
/-! PROOF. Commands end (30_encoding.md R97, R99; 42_compute_dispatch.md R176, R177; 43_host_access_and_control.md R207): which step
sets BUSY, a count that every engine step lowers, and the polls of WAIT. -/

namespace Sys2Proof.Machine

/-! ## Which step sets BUSY -/

section longCommands
variable {s t : State} {i : Instr}

theorem issueSoftware_busy (s : State) : (issueSoftware s).busy = (s.busy || isLongCommand s .computeSw) := by
  unfold issueSoftware isLongCommand
  split
  · simp [raiseFor, raiseForWord, *]
  split
  · simp [*]
  split
  · simp [raiseFor, raiseForWord, *]
  · simp_all

theorem issueHardware_busy (s : State) : (issueHardware s).busy = (s.busy || isLongCommand s .computeHw) := by
  unfold issueHardware isLongCommand
  split
  · simp [raiseFor, raiseForWord, *]
  split
  · simp [raiseFor, raiseForWord, *]
  split
  · simp [*]
  · simp_all

/-- An issue rule sets BUSY exactly in a long command that passes its checks (30_encoding.md R97). -/
theorem busy_of_exec (h : exec i s = .next t) : t.busy = (s.busy || isLongCommand s i) := by
  cases i
  case tblgen => cases h; simp [isLongCommand]
  case computeSw => cases h; exact issueSoftware_busy s
  case computeHw => cases h; exact issueHardware_busy s
  all_goals
    cases issued_of_exec h with
    | raised he => simp [isLongCommand, raiseFor, raiseForWord]
    | _ => simp [isLongCommand]

theorem isLongCommand_atCommand (s : State) (i : Instr) : isLongCommand s.atCommand i = isLongCommand s i := by
  cases i <;> rfl

theorem submitsLong_iff :
    s.submitsLong = true ↔
      s.busy = false ∧ s.errcode = .none ∧ ∃ i, s.nextIsCommand (encode i) = true ∧ isLongCommand s i = true := by
  have hlong : (∃ i, s.nextIsCommand (encode i) = true ∧ isLongCommand s i = true) ↔
      [Instr.tblgen, .computeSw, .computeHw].any (fun i => s.nextIsCommand (encode i) && isLongCommand s i) = true := by
    simp only [List.any_eq_true, Bool.and_eq_true]
    refine exists_congr fun i => ⟨fun h => ⟨?_, h⟩, And.right⟩
    cases i
    case tblgen | computeSw | computeHw => decide
    all_goals cases h.2
  rw [State.submitsLong, hlong]
  simp [and_assoc]

theorem step_of_command (hb : s.busy = false) (he : s.errcode = .none) (hc : s.nextIsCommand (encode i) = true) :
    step s = exec i s.atCommand := by
  rw [step_of_nextIsCommand hc, submitCommand_of_idle (s := s.atCommand) hb he, runWord_encode]

/-- A step sets BUSY only if it runs an accepted command (10_state.md R41). -/
theorem busy_of_stepped (h : Stepped s t) (ht : t.busy = true) :
    s.busy = true ∨ (s.errcode = .none ∧ ∃ i, s.nextIsCommand (encode i) = true) := by
  cases h with
  | quiet h _ => exact .inl ((congrArg State.busy h :).symm.trans ht)
  | engine _ hb _ => exact .inl hb
  | whileBusy w _ hb => exact .inl hb
  | cleared _ _ => exact .inl ht
  | discarded w _ _ _ _ => exact .inl ht
  | illegal w _ _ _ _ => exact .inl ((recordError_busy s.atCommand _ _).symm.trans ht)
  | issued i hc _ he _ => exact .inr ⟨he, i, hc⟩
  | reset p r f _ => cases ht

/-- From BUSY = 0 a step leads to BUSY = 1 exactly if it submits a long command (30_encoding.md R97). -/
theorem busy_iff_submitsLong (h : step s = .next t) (hb : s.busy = false) : t.busy = true ↔ s.submitsLong = true := by
  have hissued {i : Instr} (he : s.errcode = .none) (hc : s.nextIsCommand (encode i) = true) :
      t.busy = isLongCommand s i := by
    rw [step_of_command hb he hc] at h
    rw [busy_of_exec h, isLongCommand_atCommand, show s.atCommand.busy = false from hb, Bool.false_or]
  constructor
  · intro ht
    obtain hb' | ⟨he, i, hc⟩ := busy_of_stepped (stepped_of_step h) ht
    · rw [hb] at hb'
      cases hb'
    · exact submitsLong_iff.mpr ⟨hb, he, i, hc, hissued he hc ▸ ht⟩
  · intro hl
    obtain ⟨-, he, i, hc, hi⟩ := submitsLong_iff.mp hl
    exact (hissued he hc).trans hi

end longCommands

/-! ## Every state of the invariant has a step -/

section progress
variable {s : State}

theorem exists_consumeByte (hr : 0 < s.rem.toNat) (norm : DWord → Word → Phase) : ∃ t, consumeByte norm s = .next t := by
  rw [consumeByte, if_neg (by omega)]
  split <;> exact ⟨_, rfl⟩

theorem exists_bulkStep (hc : s.cur.toNat % 8 = 0) (hr : 8 ≤ s.rem.toNat) : ∃ t, bulkStep s = .next t := by
  rw [bulkStep, if_neg (by omega), if_neg (by omega)]
  split <;> exact ⟨_, rfl⟩

theorem exists_engineStep (hs : Inv s) (hb : s.busy = true) : ∃ t, engineStep s = .next t := by
  unfold engineStep
  split <;> rename_i hp
  · exact absurd hp (hs.sequencer.busyIff.mp hb)
  · exact exists_consumeByte (hs.head hp).1 normHead
  · exact exists_bulkStep (hs.sequencer.bulk hp).1 (hs.sequencer.bulk hp).2
  · exact exists_consumeByte (hs.sequencer.tail hp).1 normTail
  · exact ⟨_, rfl⟩
  · exact ⟨_, rfl⟩
  · unfold hwrunStep
    split <;> exact ⟨_, rfl⟩

theorem exists_engineTurn (hs : Inv s) : ∃ t, engineTurn s = .next t := by
  unfold engineTurn
  split
  · exact exists_engineStep hs ‹_›
  · exact ⟨s, rfl⟩

theorem exists_exec (i : Instr) (s : State) : ∃ t, exec i s = .next t := by
  cases i <;> exact ⟨_, rfl⟩

theorem exists_runWord (w : Word) (s : State) : ∃ t, runWord w s = .next t := by
  unfold runWord
  split
  · exact ⟨_, rfl⟩
  · exact exists_exec _ s

theorem exists_submitCommand (w : Word) (s : State) : ∃ t, submitCommand w s = .next t := by
  unfold submitCommand
  split
  · exact ⟨_, rfl⟩
  split
  · split <;> exact ⟨_, rfl⟩
  · exact exists_runWord w s

theorem exists_writeRegister (r : Reg) (v : Word) (s : State) : ∃ t, writeRegister r v s = .next t := by
  cases r with
  | cmd => exact exists_submitCommand v s
  | _ => exact ⟨_, rfl⟩

theorem exists_hostAccess (a : HostAccess) (s : State) : ∃ t, hostAccess a s = .next t := by
  unfold hostAccess
  split
  · exact ⟨_, rfl⟩
  split
  · exact ⟨_, rfl⟩
  split
  · split <;> exact ⟨_, rfl⟩
  · exact exists_writeRegister _ _ _

/-- The queue is no part of the invariant. -/
theorem Inv.popped (hs : Inv s) : Inv s.popped := by
  obtain ⟨hseq, htbl, herr, hrd, hmem⟩ := (inv_iff_parts s).mp hs
  exact (inv_iff_parts _).mpr ⟨hseq.congr rfl, htbl, ⟨herr.noError, herr.ghost⟩, hrd.congr rfl, hmem⟩

theorem exists_inputStep (hs : Inv s) (i : Input) : ∃ t, inputStep i s = .next t := by
  cases i with
  | host a => exact exists_hostAccess a s
  | engine => exact exists_engineTurn hs
  | wait | bufferWrite a b | reset p a => exact ⟨_, rfl⟩

/-- From a state of the invariant no step faults, and the next state is one of the invariant (10_state.md R46). -/
theorem exists_step (hs : Inv s) : ∃ t, step s = .next t ∧ Inv t := by
  have hstep : ∃ t, step s = .next t := by
    cases hi : s.inputs with
    | nil =>
      rw [step_of_nextIsEngine (by simp [State.nextIsEngine, hi])]
      exact exists_engineTurn hs.popped
    | cons i rest =>
      rw [step_of_inputs_cons hi]
      exact exists_inputStep hs.popped i
  obtain ⟨t, ht⟩ := hstep
  exact ⟨t, ht, blockInvariantKept s t hs ht⟩

end progress

/-! ## Runs -/

section runs

/-- A run of one step more, for any machine: runSteps is the run of this one. -/
theorem coreRun_succ {M : Host.Core} {s t : M.State} (h : M.step s = .next t) (n : Nat) : M.run (n + 1) s = M.run n t := by
  simp only [Host.Core.run, h]

theorem exists_step_of_coreRun_succ {M : Host.Core} {s u : M.State} {n : Nat} (h : M.run (n + 1) s = .next u) :
    ∃ t, M.step s = .next t ∧ M.run n t = .next u := by
  simp only [Host.Core.run] at h
  split at h
  · exact ⟨_, ‹_›, h⟩
  · cases h
  · cases h

variable {s t u : State} {m n : Nat}

theorem runSteps_succ (h : step s = .next t) (n : Nat) : runSteps (n + 1) s = runSteps n t :=
  coreRun_succ (M := Sys2Proof.core) h n

theorem runSteps_one (h : step s = .next t) : runSteps 1 s = .next t :=
  runSteps_succ h 0

/-- A run of n + 1 steps begins with a step. -/
theorem exists_step_of_runSteps_succ (h : runSteps (n + 1) s = .next u) : ∃ t, step s = .next t ∧ runSteps n t = .next u :=
  exists_step_of_coreRun_succ (M := Sys2Proof.core) h

theorem runSteps_add (h : runSteps n s = .next t) (m : Nat) : runSteps (n + m) s = runSteps m t := by
  induction n generalizing s with
  | zero =>
    cases h
    rw [Nat.zero_add]
  | succ n ih =>
    obtain ⟨v, hv, h⟩ := exists_step_of_runSteps_succ h
    rw [Nat.succ_add, runSteps_succ hv, ih h]

theorem owesPoll_add (h : runSteps n s = .next t) (m : Nat) (owed : Bool) :
    owesPoll (n + m) owed s = owesPoll m (owesPoll n owed s) t := by
  induction n generalizing s owed with
  | zero =>
    cases h
    rw [Nat.zero_add]
    rfl
  | succ n ih =>
    obtain ⟨v, hv, h⟩ := exists_step_of_runSteps_succ h
    rw [Nat.succ_add, owesPoll_succ hv, owesPoll_succ hv, ih h]

end runs

/-! ## Every engine step lowers a count -/

section pending
variable {s t : State}

/-- A bound on the engine steps left: one for every byte left and one for FINISH while BUSY = 1 (42_compute_dispatch.md R177). -/
def State.pending (s : State) : Nat := if s.busy then s.rem.toNat + 1 else 0

theorem pending_of_idle (hb : s.busy = false) : s.pending = 0 := by
  simp [State.pending, hb]

theorem pending_of_busy (hb : s.busy = true) : s.pending = s.rem.toNat + 1 :=
  if_pos hb

theorem pending_consumed_lt {k : Nat} (hk : 0 < k) (hr : k ≤ s.rem.toNat) (hb : s.busy = true) (acc : DWord)
    (norm : DWord → Word → Phase) : (s.consumed k acc norm).pending < s.pending := by
  rw [pending_of_busy hb, pending_of_busy (s := s.consumed k acc norm) hb, toNat_rem_consumed hr]
  omega

/-- An engine step consumes bytes or ends the command (42_compute_dispatch.md R165-R169, R173). -/
theorem pending_of_engined (hb : s.busy = true) (h : Engined s t) : t.pending < s.pending := by
  cases h with
  | head _ hr b _ => exact pending_consumed_lt Nat.one_pos hr hb _ _
  | bulk _ _ hr w _ => exact pending_consumed_lt (by decide) hr hb _ _
  | tail _ hr b _ => exact pending_consumed_lt Nat.one_pos hr hb _ _
  | _ =>
    rw [pending_of_idle rfl, pending_of_busy hb]
    exact Nat.succ_pos _

theorem inputs_of_engined (h : Engined s t) : t.inputs = s.inputs := by
  cases h <;> simp [State.consumed]

/-- On its turn while BUSY = 1 the engine takes a step that lowers the count. -/
theorem exists_engine_step (hs : Inv s) (hn : s.nextIsEngine = true) (hb : s.busy = true) :
    ∃ t, step s = .next t ∧ Inv t ∧ t.inputs = s.inputs.tail ∧ t.pending < s.pending := by
  obtain ⟨t, ht, hinv⟩ := exists_step hs
  have he : Engined s.popped t := by
    rw [step_of_nextIsEngine_of_busy hn hb] at ht
    exact engined_of_engineStep ht
  exact ⟨t, ht, hinv, inputs_of_engined he, pending_of_engined (s := s.popped) hb he⟩

/-- With no move listed the engine ends the running command within its count (42_compute_dispatch.md R176). -/
theorem exists_idle (hs : Inv s) (hi : s.inputs = []) :
    ∃ n u, n ≤ s.pending ∧ runSteps n s = .next u ∧ u.busy = false := by
  induction hk : s.pending using Nat.strong_induction_on generalizing s with
  | _ k ih =>
    subst hk
    cases hb : s.busy with
    | false => exact ⟨0, s, Nat.zero_le _, rfl, hb⟩
    | true =>
      obtain ⟨t, ht, hinv, hit, hlt⟩ := exists_engine_step hs (by simp [State.nextIsEngine, hi]) hb
      obtain ⟨n, u, hn, hu, hub⟩ := ih t.pending hlt hinv (by rw [hit, hi]; rfl) rfl
      exact ⟨n + 1, u, by omega, by rw [runSteps_succ ht, hu], hub⟩

end pending

/-- Settles O34: an accepted command sets BUSY exactly if it is long, and every engine step lowers the count REM + 1. -/
theorem everyLongCommandEnds : Obligations.EveryLongCommandEnds := by
  unfold Obligations.EveryLongCommandEnds
  refine ⟨fun s t => busy_iff_submitsLong, fun s hs hi => ?_⟩
  obtain ⟨n, u, hn, hu, hub⟩ := exists_idle hs hi
  refine ⟨n, u, hn.trans ?_, hu, hub⟩
  rw [State.pending]
  split <;> omega

end Sys2Proof.Machine
end

section
/-! PROOF. WAIT and the end of a host program (30_encoding.md R99; 43_host_access_and_control.md R206, R207): polls end, a STATUS
read answers BUSY, and a host that owes no poll leaves the block idle. -/

namespace Sys2Proof.Machine

/-! ## A move leaves the rest of the queue -/

section queue
variable {s t : State} {i : Instr} {rest : List Input}

theorem inputs_of_issued (h : Issued s i t) : t.inputs = s.inputs := by
  cases h with
  | raised he => exact recordError_inputs s _ _
  | _ => rfl

theorem inputs_of_submitCommand {w : Word} (h : submitCommand w s = .next t) : t.inputs = s.inputs := by
  obtain ⟨-, rfl⟩ | ⟨-, -, -, rfl⟩ | ⟨-, -, -, rfl⟩ | ⟨-, -, -, rfl⟩ | ⟨-, -, i, -, hx⟩ := submitCommand_next h
  · exact recordError_inputs s _ _
  · rfl
  · rfl
  · exact recordError_inputs s _ _
  · exact inputs_of_issued (issued_of_exec hx)

theorem inputs_of_hostAccess {a : HostAccess} (h : hostAccess a s = .next t) : t.inputs = s.inputs := by
  obtain rfl | rfl | ⟨v, rfl⟩ | rfl | ⟨v, rfl⟩ | ⟨v, rfl⟩ | ⟨v, rfl⟩ | ⟨v, rfl⟩ | ⟨w, -, hw⟩ := hostAccess_next h
  case inr.inr.inr.inr.inr.inr.inr.inr => exact inputs_of_submitCommand (s := respond .done s) hw
  all_goals rfl

theorem inputs_of_engineTurn (h : engineTurn s = .next t) : t.inputs = s.inputs := by
  obtain ⟨-, h⟩ | ⟨-, rfl⟩ := engineTurn_next h
  · exact inputs_of_engined (engined_of_engineStep h)
  · rfl

/-- Only WAIT lists moves of its own (log entry 14). -/
theorem inputs_of_inputStep {i : Input} (hw : i ≠ .wait) (h : inputStep i s = .next t) : t.inputs = s.inputs := by
  cases i with
  | host a => exact inputs_of_hostAccess h
  | wait => exact absurd rfl hw
  | engine => exact inputs_of_engineTurn h
  | bufferWrite a b => cases h; rfl
  | reset p a => cases h; exact resetMove_inputs s p a

end queue

/-! ## The polls of WAIT -/

section wait
variable {s t : State} {rest : List Input}

theorem getLsbD_statusWord_busy (s : State) : (statusWord s).getLsbD 0 = s.busy := by
  rw [getLsbD_statusWord]
  simp

theorem waitPoll_of_busy (hb : s.busy = true) :
    waitPoll s = { respond (.value (statusWord s)) s with inputs := .engine :: .wait :: s.inputs } := by
  rw [waitPoll, getLsbD_statusWord_busy, if_pos hb]

theorem waitPoll_of_idle (hb : s.busy = false) : waitPoll s = respond (.value (statusWord s)) s := by
  rw [waitPoll, getLsbD_statusWord_busy, hb]
  rfl

theorem waitPoll_response (s : State) : (waitPoll s).response = some (.value (statusWord s)) := by
  cases hb : s.busy with
  | false => rw [waitPoll_of_idle hb, respond_response]
  | true => rw [waitPoll_of_busy hb, respond_response]

/-- A poll that reads BUSY = 0 ends WAIT (30_encoding.md R99). -/
theorem step_of_wait_of_idle (hi : s.inputs = .wait :: rest) (hb : s.busy = false) :
    step s = .next (respond (.value (statusWord s)) s.popped) := by
  rw [step_of_inputs_cons hi]
  exact congrArg _ (waitPoll_of_idle (s := s.popped) hb)

/-- A poll that reads BUSY = 1 and the engine's turn after it lower the count (log entry 14). -/
theorem exists_poll_and_turn (hs : Inv s) (hi : s.inputs = .wait :: rest) (hb : s.busy = true) :
    ∃ t, runSteps 2 s = .next t ∧ Inv t ∧ t.inputs = .wait :: rest ∧ t.pending < s.pending := by
  have hpoll : step s = .next { respond (.value (statusWord s)) s.popped with inputs := .engine :: .wait :: s.popped.inputs } := by
    rw [step_of_inputs_cons hi]
    exact congrArg _ (waitPoll_of_busy (s := s.popped) hb)
  obtain ⟨t, ht, hinv, hit, hlt⟩ := exists_engine_step (blockInvariantKept s _ hs hpoll) rfl hb
  refine ⟨t, ?_, hinv, ?_, hlt⟩
  · rw [runSteps_succ hpoll, runSteps_one ht]
  · rw [hit, popped_inputs, hi]
    rfl

/-- WAIT reaches its last poll, the one that finds the block idle. -/
theorem exists_last_poll (hs : Inv s) (hi : s.inputs = .wait :: rest) :
    ∃ n p, runSteps n s = .next p ∧ Inv p ∧ p.inputs = .wait :: rest ∧ p.busy = false := by
  induction hk : s.pending using Nat.strong_induction_on generalizing s with
  | _ k ih =>
    subst hk
    cases hb : s.busy with
    | false => exact ⟨0, s, rfl, hs, hi, hb⟩
    | true =>
      obtain ⟨t, ht, hinv, hit, hlt⟩ := exists_poll_and_turn hs hi hb
      obtain ⟨n, p, hp, hpinv, hpi, hpb⟩ := ih t.pending hlt hinv hit rfl
      exact ⟨2 + n, p, by rw [runSteps_add ht, hp], hpinv, hpi, hpb⟩

/-- WAIT ends: its last poll answers STATUS with BUSY = 0 and is taken from the queue. -/
theorem exists_wait_end (hs : Inv s) (hi : s.inputs = .wait :: rest) :
    ∃ n u, runSteps n s = .next u ∧ Inv u ∧ u.inputs = rest ∧ u.busy = false ∧ u.response = some (.value (statusWord u)) := by
  obtain ⟨n, p, hp, hinv, hpi, hpb⟩ := exists_last_poll hs hi
  have hlast := step_of_wait_of_idle hpi hpb
  refine ⟨n + 1, _, (runSteps_add hp 1).trans (runSteps_one hlast), blockInvariantKept p _ hinv hlast, ?_, hpb, rfl⟩
  rw [respond_inputs, popped_inputs, hpi]
  rfl

/-- Every move is taken from the queue after finitely many steps. -/
theorem exists_run_of_move {i : Input} (hs : Inv s) (hi : s.inputs = i :: rest) :
    ∃ n t, runSteps n s = .next t ∧ Inv t ∧ t.inputs = rest := by
  by_cases hw : i = .wait
  · subst hw
    obtain ⟨n, u, hu, hinv, hui, -, -⟩ := exists_wait_end hs hi
    exact ⟨n, u, hu, hinv, hui⟩
  · obtain ⟨t, ht, hinv⟩ := exists_step hs
    refine ⟨1, t, runSteps_one ht, hinv, ?_⟩
    rw [step_of_inputs_cons hi] at ht
    rw [inputs_of_inputStep hw ht, popped_inputs, hi]
    rfl

theorem exists_run_of_moves {moves : List Input} (hs : Inv s) (hi : s.inputs = moves ++ rest) :
    ∃ n t, runSteps n s = .next t ∧ Inv t ∧ t.inputs = rest := by
  induction moves generalizing s with
  | nil => exact ⟨0, s, rfl, hs, hi⟩
  | cons i moves ih =>
    obtain ⟨n, t, ht, hinv, hti⟩ := exists_run_of_move hs hi
    obtain ⟨m, u, hu, huinv, hui⟩ := ih hinv hti
    exact ⟨n + m, u, by rw [runSteps_add ht, hu], huinv, hui⟩

end wait

/-! ## The polls a host owes -/

section polls
variable {s t u : State} {n : Nat}

theorem observation_eq_some_iff {a : HostAccess} {r : Response} :
    observation s t = some (a, r) ↔ s.nextOperation = some a ∧ t.response = some r ∧ a.inWindow = true := by
  unfold observation
  cases s.nextOperation with
  | none => simp
  | some a' =>
    cases t.response with
    | none => simp
    | some r' =>
      simp only [Option.ite_none_right_eq_some, Option.some.injEq, Prod.mk.injEq]
      constructor
      · rintro ⟨hwin, rfl, rfl⟩
        exact ⟨rfl, rfl, hwin⟩
      · rintro ⟨rfl, rfl, hwin⟩
        exact ⟨hwin, rfl, rfl⟩

/-- The next operation reads STATUS and the answer has BUSY = 0 (43_host_access_and_control.md R207). -/
theorem readsIdle_iff :
    readsIdle s t = true ↔
      s.nextOperation = some (HostAccess.rd .status) ∧ ∃ v, t.response = some (.value v) ∧ v.getLsbD 0 = false := by
  constructor
  · intro h
    unfold readsIdle at h
    split at h
    · rename_i a v hobs
      obtain ⟨hop, hr, -⟩ := observation_eq_some_iff.mp hobs
      obtain ⟨ha, hv⟩ := Bool.and_eq_true_iff.mp h
      rw [of_decide_eq_true ha] at hop
      exact ⟨hop, v, hr, (Bool.not_eq_true' _).mp hv⟩
    · cases h
  · rintro ⟨hop, v, hr, hv⟩
    rw [readsIdle, observation_eq_some_iff.mpr ⟨hop, hr, by decide⟩]
    show (decide (HostAccess.rd .status = HostAccess.rd .status) && !v.getLsbD 0) = true
    rw [hv, Bool.not_false, Bool.and_true, decide_eq_true_iff]

/-- A read of STATUS answers its value, except while the reset input is asserted (43_host_access_and_control.md R201). -/
theorem response_of_status_read (h : step s = .next t) (hop : s.nextOperation = some (HostAccess.rd .status)) :
    s.nextIsReset = true ∨ t.response = some (.value (statusWord s)) := by
  unfold State.nextOperation at hop
  split at hop
  · rename_i a rest hi
    cases hop
    have hread : step s = .next (respond (.value (statusWord s)) s.popped) := by
      rw [step_of_inputs_cons hi]
      exact hostAccess_read (off := Reg.offset .status) (by decide) (by decide) rfl
    rw [hread] at h
    cases h
    exact .inr rfl
  · rename_i rest hi
    rw [step_of_inputs_cons hi] at h
    cases h
    exact .inr (waitPoll_response s.popped)
  · rename_i p a rest hi
    exact .inl (by simp [State.nextIsReset, hi])
  · cases hop

theorem busy_of_reset (h : step s = .next t) (hn : s.nextIsReset = true) : t.busy = false := by
  unfold State.nextIsReset at hn
  split at hn
  · rename_i p a rest hi
    rw [step_of_inputs_cons hi] at h
    cases h
    exact resetMove_busy s.popped p a
  · cases hn

/-- No read of STATUS answers BUSY = 0 in a step that begins and ends with BUSY = 1. -/
theorem readsIdle_of_busy (h : step s = .next t) (hs : s.busy = true) (ht : t.busy = true) : readsIdle s t = false := by
  by_contra hr
  obtain ⟨hop, v, hv, hbit⟩ := readsIdle_iff.mp (by simpa using hr)
  obtain hn | hst := response_of_status_read h hop
  · rw [busy_of_reset h hn] at ht
    cases ht
  · obtain rfl : statusWord s = v := by simpa using hst.symm.trans hv
    rw [getLsbD_statusWord_busy, hs] at hbit
    cases hbit

/-- While the block is busy the host owes a poll: the long command that set BUSY made it so, and no read answered BUSY = 0 since
(43_host_access_and_control.md R207). -/
theorem owesPoll_of_busy {owed : Bool} (h : runSteps n s = .next u) (hs : s.busy = true → owed = true) (hu : u.busy = true) :
    owesPoll n owed s = true := by
  induction n generalizing s owed with
  | zero =>
    cases h
    exact hs hu
  | succ n ih =>
    obtain ⟨t, ht, h⟩ := exists_step_of_runSteps_succ h
    rw [owesPoll_succ ht]
    refine ih h fun htb => ?_
    cases hb : s.busy with
    | false => rw [(busy_iff_submitsLong ht hb).mp htb, Bool.true_or]
    | true => rw [hs hb, readsIdle_of_busy ht hb htb, Bool.not_false, Bool.and_true, Bool.or_true]

/-- The last poll of WAIT leaves none owed, whatever was owed before. -/
theorem owesPoll_last_poll {rest : List Input} (hi : s.inputs = .wait :: rest) (hb : s.busy = false) (owed : Bool) :
    owesPoll 1 owed s = false := by
  have hlast := step_of_wait_of_idle hi hb
  have hlong : s.submitsLong = false := by simp [State.submitsLong, State.nextIsCommand, hi]
  have hread : readsIdle s (respond (.value (statusWord s)) s.popped) = true :=
    readsIdle_iff.mpr ⟨by simp [State.nextOperation, hi], _, rfl, by rw [getLsbD_statusWord_busy, hb]⟩
  rw [owesPoll_succ hlast, hlong, hread, Bool.not_true, Bool.and_false, Bool.or_false]
  rfl

/-- A program that closes with WAIT ends (43_host_access_and_control.md R207, R208). -/
theorem exists_programEnds {moves : List Input} (hs : Inv s) (hi : s.inputs = moves ++ [.wait]) :
    ∃ n u, programEnds n s u := by
  obtain ⟨n, t, ht, hinv, hti⟩ := exists_run_of_moves hs hi
  obtain ⟨m, p, hp, -, hpi, hpb⟩ := exists_last_poll hinv hti
  have hrun : runSteps (n + m) s = .next p := (runSteps_add ht m).trans hp
  refine ⟨n + m + 1, respond (.value (statusWord p)) p.popped, ?_, ?_, ?_⟩
  · rw [runSteps_add hrun, runSteps_one (step_of_wait_of_idle hpi hpb)]
  · simp [State.operationsDone, hpi]
  · rw [owesPoll_add hrun, owesPoll_last_poll hpi hpb]

end polls

/-- Settles O45: each poll that reads BUSY = 1 gives the engine a turn that lowers its count, a busy block means an owed poll, and
every queue is used up. -/
theorem waitEndsWithBusyClear : Obligations.WaitEndsWithBusyClear := by
  unfold Obligations.WaitEndsWithBusyClear
  refine ⟨fun s rest hs hi => ?_, fun s u n hb hend => ?_, fun s moves => exists_programEnds⟩
  · obtain ⟨n, u, hu, -, hui, hub, hresp⟩ := exists_wait_end hs hi
    exact ⟨n, u, _, hu, hui, hub, hresp, rfl, by rw [getLsbD_statusWord_busy, hub]⟩
  · obtain ⟨hrun, -, howes⟩ := hend
    by_contra hu
    rw [owesPoll_of_busy hrun (by simp [hb]) (by simpa using hu)] at howes
    cases howes

end Sys2Proof.Machine
end

section
/-! PROOF. GenTable() and the command that builds it (40_table_generation.md): the recurrences of its rows and their linearity,
TBLGEN at its CMD write and its engine step, the frame of each engine step, and the table once built. -/

namespace Sys2Proof.Machine

/-! ## The algorithm -/

theorem crcShifts_eq_iterate (n : Nat) (c : Word) : crcShifts n c = crcShift^[n] c := by
  induction n generalizing c with
  | zero => rfl
  | succ n ih => exact ih (crcShift c)

theorem entry_genTable_zero (i : Byte) : entry genTable 0#3 i = row0 i :=
  entry_genTable 0#3 i

/-- A row after the first comes from the row before it (40_table_generation.md R112). -/
theorem entry_genTable_of_ne_zero {j : BitVec 3} (hj : j ≠ 0#3) (i : Byte) :
    entry genTable j i = nextRow (entry genTable (j - 1#3) i) := by
  have hpred : j.toNat = (j - 1#3).toNat + 1 := by bv_omega
  rw [entry_genTable, entry_genTable, hpred, tableEntry]

/-- Settles O7: the rows of GenTable() are given by recursion, row 0 from the iterated shift and each later one from the row
before it. -/
theorem generatedTableFollowsTheAlgorithm : Obligations.GeneratedTableFollowsTheAlgorithm := by
  unfold Obligations.GeneratedTableFollowsTheAlgorithm
  refine ⟨fun i => ?_, fun j i hj => ?_⟩
  · rw [entry_genTable_zero, row0, crcShifts_eq_iterate]
    rfl
  · rw [entry_genTable_of_ne_zero hj, entry_genTable_zero, nextRow]

/-! ## Linearity -/

theorem crcShifts_xor (n : Nat) (a b : Word) : crcShifts n (a ^^^ b) = crcShifts n a ^^^ crcShifts n b := by
  induction n generalizing a b with
  | zero => rfl
  | succ n ih => rw [crcShifts, crcShift_xor, ih, ← crcShifts, ← crcShifts]

theorem row0_xor (a b : Byte) : row0 (a ^^^ b) = row0 a ^^^ row0 b := by
  rw [row0, BitVec.setWidth_xor, crcShifts_xor, ← row0, ← row0]

theorem nextRow_xor (p q : Word) : nextRow (p ^^^ q) = nextRow p ^^^ nextRow q := by
  simp only [nextRow, BitVec.setWidth_xor, row0_xor, BitVec.ushiftRight_xor_distrib]
  ac_rfl

/-- Each row of the table is linear in its column (40_table_generation.md R117). -/
theorem tableEntry_xor (j : Nat) (a b : Byte) : tableEntry j (a ^^^ b) = tableEntry j a ^^^ tableEntry j b := by
  induction j with
  | zero => exact row0_xor a b
  | succ j ih => rw [tableEntry, ih, nextRow_xor, ← tableEntry, ← tableEntry]

/-- A linear row is 0 at column 0. -/
theorem tableEntry_zero_column (j : Nat) : tableEntry j 0#8 = 0#32 := by
  have h := tableEntry_xor j 0#8 0#8
  rwa [BitVec.xor_self, BitVec.xor_self] at h

/-! ## What row j means -/

/-- A byte step with a zero data byte takes an entry to the one a row further (40_table_generation.md R117). -/
theorem byteStep_setWidth_zero (p : Word) : byteStep genTable (p.setWidth 64) 0#8 = (nextRow p).setWidth 64 := by
  have hlow : byteOf 0 (p.setWidth 64) = p.setWidth 8 := by
    ext i hi
    simp [byteOf]
    omega
  have hshift : p.setWidth 64 >>> 8 = (p >>> 8).setWidth 64 := by
    apply BitVec.eq_of_toNat_eq
    simp
  rw [byteStep_genTable, hlow, BitVec.xor_zero, hshift, nextRow, BitVec.setWidth_xor]

theorem tableEntry_eq_iterate_byteStep (j : Nat) (i : Byte) :
    (tableEntry j i).setWidth 64 = (fun c : DWord => byteStep genTable c 0#8)^[j] ((tableEntry 0 i).setWidth 64) := by
  induction j with
  | zero => rfl
  | succ j ih => rw [Function.iterate_succ_apply', ← ih, byteStep_setWidth_zero, tableEntry]

/-- Settles O8: every row is linear, so column 0 is 0, and each further row is one byte step with a zero data byte. -/
theorem generatedTableProperties : Obligations.GeneratedTableProperties := by
  unfold Obligations.GeneratedTableProperties
  refine ⟨fun j => ?_, ?_, fun j a b => ?_, fun j i => ?_, fun j i => (entry genTable j i).isLt⟩
  · rw [entry_genTable, tableEntry_zero_column]
  · rw [entry_genTable_zero]
    decide
  · simp only [entry_genTable, tableEntry_xor]
  · rw [entry_genTable, entry_genTable]
    exact tableEntry_eq_iterate_byteStep j.toNat i

/-! ## The worked entries -/

/-- Settles O9: the entries by the recursion of R111 and R112, evaluated. -/
theorem workedTableEntries : Obligations.WorkedTableEntries := by
  unfold Obligations.WorkedTableEntries
  simp only [funext (entry_genTable _)]
  refine ⟨?_, ?_, ?_, ?_⟩ <;> decide +kernel

/-! ## Engine steps -/

section frames
variable {s t : State}

/-- Recording an error writes the error state and the ghost FAULTED alone (60_exceptions.md R224). -/
theorem recordError_frame (e : ErrCode) (info : DWord) (s : State) :
    recordError e info s = { s with
      errcode := (recordError e info s).errcode, errovf := (recordError e info s).errovf
      errinfo := (recordError e info s).errinfo, faulted := (recordError e info s).faulted } := by
  unfold recordError
  split <;> rfl

/-- t is s but for what a HEAD, BULK or TAIL step may write (42_compute_dispatch.md R165-R167, R169). -/
def SameButReading (s t : State) : Prop :=
  t = { s with
    acc := t.acc, accValid := t.accValid, cur := t.cur, rem := t.rem, busy := t.busy, phase := t.phase
    errcode := t.errcode, errovf := t.errovf, errinfo := t.errinfo, faulted := t.faulted, draws := t.draws }

theorem sameButReading_abortSoftware (s : State) : SameButReading s (abortSoftware s) := by
  unfold SameButReading abortSoftware
  rw [recordError_frame]
  rfl

theorem sameButReading_of_consumeByte {norm : DWord → Word → Phase} (h : consumeByte norm s = .next t) :
    SameButReading s t := by
  obtain ⟨-, ⟨-, rfl⟩ | ⟨b, -, rfl⟩⟩ := consumeByte_next h
  · exact sameButReading_abortSoftware s
  · rfl

theorem sameButReading_of_bulkStep (h : bulkStep s = .next t) : SameButReading s t := by
  obtain ⟨-, -, ⟨-, rfl⟩ | ⟨w, -, rfl⟩⟩ := bulkStep_next h
  · exact sameButReading_abortSoftware s
  · rfl

theorem sameButReading_of_engineStep (hp : s.phase = .head ∨ s.phase = .bulk ∨ s.phase = .tail) (h : engineStep s = .next t) :
    SameButReading s t := by
  unfold engineStep at h
  obtain hp | hp | hp := hp <;> rw [hp] at h
  · exact sameButReading_of_consumeByte h
  · exact sameButReading_of_bulkStep h
  · exact sameButReading_of_consumeByte h

/-- Completing a COMPUTE writes RESULT, perhaps drawn, and ends the command (42_compute_dispatch.md R168, R173). -/
theorem endLong_deliverResult_frame (v : Word) (s : State) :
    endLong (deliverResult v s) = { s with
      result := (deliverResult v s).result, busy := false, phase := .idle, draws := (deliverResult v s).draws } := by
  unfold deliverResult
  split <;> rfl

/-- The hardware path's abort leaves RESULT, ACC and ACC_VALID (42_compute_dispatch.md R174). -/
theorem abortHardware_frame (s : State) :
    abortHardware s = { s with
      busy := false, phase := .idle, errcode := (abortHardware s).errcode, errovf := (abortHardware s).errovf
      errinfo := (abortHardware s).errinfo, faulted := (abortHardware s).faulted, draws := s.draws + 1 } := by
  unfold abortHardware
  rw [recordError_frame]
  rfl

/-- The TBLGEN step has one outcome (40_table_generation.md R115). -/
theorem engineStep_of_tblgen (hp : s.phase = .tblgen) :
    engineStep s = .next { s with table := genTable, tblValid := true, busy := false, phase := .idle } := by
  rw [engineStep, hp]
  rfl

/-- Everything an HWRUN step can do (42_compute_dispatch.md R173). -/
theorem hwrunStep_next (h : hwrunStep s = .next t) :
    (∃ v, t = endLong (deliverResult v s)) ∨ t = abortHardware s := by
  unfold hwrunStep at h
  split at h <;> cases h
  · exact .inl ⟨_, rfl⟩
  · exact .inr rfl

end frames

/-- Settles O51: the outcomes of the engine step of each phase, each by its frame. -/
theorem engineStepsChangeOnlyTheirRegisters : Obligations.EngineStepsChangeOnlyTheirRegisters := by
  unfold Obligations.EngineStepsChangeOnlyTheirRegisters
  intro s t hb h
  have hstep : engineStep s = .next t := by rwa [engineTurn, if_pos hb] at h
  refine ⟨fun hp => sameButReading_of_engineStep hp hstep, fun hp => ?_, fun hp => ?_, fun hp => ?_, fun a => ?_⟩
  · rw [engineStep_of_finish hp] at hstep
    cases hstep
    rw [endLong_deliverResult_frame]
  · rw [engineStep_of_tblgen hp] at hstep
    cases hstep
    rfl
  · rw [engineStep, hp] at hstep
    obtain ⟨v, rfl⟩ | rfl := hwrunStep_next hstep
    · rw [endLong_deliverResult_frame]
    · rw [abortHardware_frame]
  · rw [mem_of_engineTurn h]

/-! ## The table once built -/

/-- Settles O11: in a state of the invariant a valid table is GenTable(), and every step but the reset leaves it valid and so
again GenTable(). -/
theorem tableIsConstantOnceValid : Obligations.TableIsConstantOnceValid := by
  unfold Obligations.TableIsConstantOnceValid
  intro s t hs hv hn h
  have hstep := stepped_of_step h
  have hv' := tblValid_of_stepped hstep hv hn
  refine ⟨hv', fun j i => ?_⟩
  rw [table_eq_genTable_of_stepped hs.table hstep hv', hs.table hv]

/-! ## TBLGEN -/

/-- The engine's turn in phase TBLGEN builds the table and ends the command (40_table_generation.md R115). -/
theorem step_of_tblgen {s : State} (hn : s.nextIsEngine = true) (hb : s.busy = true) (hp : s.phase = .tblgen) :
    step s = .next { s.popped with table := genTable, tblValid := true, busy := false, phase := .idle } := by
  rw [step_of_nextIsEngine_of_busy hn hb]
  exact engineStep_of_tblgen (s := s.popped) hp

/-- A valid table is read through its window (10_state.md R35). -/
theorem hostAccess_read_table {s : State} (hv : s.tblValid = true) (j : BitVec 3) (i : Byte) :
    hostAccess (HostAccess.rd (.table j i)) s = .next (respond (.value (entry s.table j i)) s) := by
  have hoff := Reg.toNat_offset_table j i
  have hj := j.isLt
  have hi := i.isLt
  refine hostAccess_read (by omega) (by omega) ?_
  rw [Reg.ofOffset_offset_table]
  exact if_pos hv

theorem extractLsb'_statusWord_phase (s : State) : (statusWord s).extractLsb' 16 3 = phaseBits s.phase :=
  extractLsb'_eq_of_getLsbD fun i _ => getLsbD_statusWord_phase s i

/-- Settles O10: TBLGEN only starts the command, its engine step writes GenTable(), which a valid table already is, and the
acceptance checks come before it. -/
theorem tblgenBuildsTheTable : Obligations.TblgenBuildsTheTable := by
  unfold Obligations.TblgenBuildsTheTable
  refine ⟨by decide, fun s => rfl, fun s hb => submitCommand_of_busy hb _,
    fun s hb he => submitCommand_of_error hb he (by decide), fun s hs hn hb hp hv => ?_, fun s => step_of_tblgen, ?_⟩
  · rw [step_of_tblgen hn hb hp, ← hs.table hv, ← hv]
    rfl
  · refine ⟨beginLong .tblgen (State.reset.withFetchWord 32 1).atCommand, _, _,
      step_of_command (i := .tblgen) rfl rfl (by decide), rfl, rfl, extractLsb'_statusWord_phase _, getLsbD_statusWord_busy _,
      step_of_tblgen rfl rfl rfl, rfl, rfl, hostAccess_read_table rfl 0#3 0x01#8, ?_⟩
    have hentry : entry genTable 0#3 0x01#8 = 0xF26B8303#32 := by
      rw [entry_genTable_zero]
      decide
    rw [respond_response, hentry]

end Sys2Proof.Machine
end

section
/-! PROOF. The byte step and the fold over GenTable() (41_accumulator_ops.md R133-R138): eight shifts of a word are one step of the
row recurrence, and byte steps over a word's bytes are its lanes. -/

namespace Sys2Proof.Machine

/-! ## Bytes of a word -/

theorem byteOf_xor (k : Nat) (x y : DWord) : byteOf k (x ^^^ y) = byteOf k x ^^^ byteOf k y :=
  BitVec.extractLsb'_xor

/-- byte_k is the low byte of the word shifted down to it. -/
theorem byteOf_zero_ushiftRight (k : Nat) (x : DWord) : byteOf 0 (x >>> (8 * k)) = byteOf k x := by
  apply BitVec.eq_of_getLsbD_eq
  intro i hi
  simp [byteOf]

theorem byteOf_zero_setWidth (p : Word) : byteOf 0 (p.setWidth 64) = p.setWidth 8 := by
  ext i hi
  simp [byteOf]
  omega

theorem setWidth_ushiftRight_eight (p : Word) : p.setWidth 64 >>> 8 = (p >>> 8).setWidth 64 := by
  apply BitVec.eq_of_toNat_eq
  simp

/-- A pair whose high half is 0 is its low half, zero-extended. -/
theorem setWidth_lowHalf {x : DWord} (h : highHalf x = 0#32) : (lowHalf x).setWidth 64 = x := by
  have hlt := (highHalf_eq_zero_iff x).mp h
  apply BitVec.eq_of_toNat_eq
  simp only [lowHalf, BitVec.toNat_setWidth, BitVec.extractLsb'_toNat, Nat.shiftRight_zero]
  omega

/-! ## The byte step is eight shifts -/

/-- While the low bit is 0 an iteration of R111 only shifts. -/
theorem crcShifts_of_low_bits_zero {n : Nat} {c : Word} (h : ∀ i < n, c.getLsbD i = false) : crcShifts n c = c >>> n := by
  induction n generalizing c with
  | zero => rfl
  | succ n ih =>
    have hshift : crcShift c = c >>> 1 := by rw [crcShift, h 0 (Nat.succ_pos n), if_neg Bool.false_ne_true]
    have hlow (i : Nat) (hi : i < n) : (c >>> 1).getLsbD i = false := by
      rw [BitVec.getLsbD_ushiftRight]
      exact h (1 + i) (by omega)
    rw [crcShifts, hshift, ih hlow, ← BitVec.shiftRight_add, Nat.add_comm]

/-- Eight iterations of R111 reduce the low byte through row 0 and shift the rest down: one step of R112. -/
theorem crcShifts_eight (c : Word) : crcShifts 8 c = nextRow c := by
  have hsplit : c = (c.setWidth 8).setWidth 32 ^^^ (c >>> 8 <<< 8) := by
    apply BitVec.eq_of_getLsbD_eq
    intro i hi
    by_cases h8 : i < 8
    · simp [h8, hi]
    · simp [h8, hi, show 8 + (i - 8) = i by omega]
  have hhigh : crcShifts 8 (c >>> 8 <<< 8) = c >>> 8 := by
    rw [crcShifts_of_low_bits_zero fun i hi => by simp [hi]]
    apply BitVec.eq_of_getLsbD_eq
    intro i hi
    by_cases h24 : 8 + i < 32
    · simp [h24]
    · simp [h24, c.getLsbD_of_ge (8 + i) (by omega)]
  calc crcShifts 8 c = crcShifts 8 ((c.setWidth 8).setWidth 32) ^^^ crcShifts 8 (c >>> 8 <<< 8) := by
        rw [← crcShifts_xor, ← hsplit]
    _ = nextRow c := by rw [hhigh, nextRow, row0]

/-- The data byte of a byte step is XORed into the accumulator's low byte (41_accumulator_ops.md R133). -/
theorem byteStep_eq_byteStep_xor_zero (t : Table) (acc : DWord) (b : Byte) :
    byteStep t acc b = byteStep t (acc ^^^ b.setWidth 64) 0#8 := by
  have hlow : byteOf 0 (b.setWidth 64) = b := by
    ext i hi
    simp [byteOf, hi]
    omega
  have hhigh : b.setWidth 64 >>> 8 = 0#64 := by
    apply BitVec.eq_of_toNat_eq
    simp
    omega
  rw [byteStep, byteStep, byteOf_xor, hlow, BitVec.ushiftRight_xor_distrib, hhigh, BitVec.xor_zero, BitVec.xor_zero]

theorem byteStep_setWidth (p : Word) (b : Byte) :
    byteStep genTable (p.setWidth 64) b = (crcShifts 8 (p ^^^ b.setWidth 32)).setWidth 64 := by
  have hwide : p.setWidth 64 ^^^ b.setWidth 64 = (p ^^^ b.setWidth 32).setWidth 64 := by
    rw [BitVec.setWidth_xor, BitVec.setWidth_setWidth (by decide)]
  rw [byteStep_eq_byteStep_xor_zero, hwide, byteStep_setWidth_zero, crcShifts_eight]

/-- Settles O16: an accumulator with its high half 0 is a word, and the byte step of a word is eight iterations of R111. -/
theorem byteStepIsBitwiseReduction : Obligations.ByteStepIsBitwiseReduction := by
  unfold Obligations.ByteStepIsBitwiseReduction
  intro acc b h
  have hstep := byteStep_setWidth (lowHalf acc) b
  rw [setWidth_lowHalf h, crcShifts_eq_iterate] at hstep
  exact hstep

/-! ## The fold is eight byte steps -/

/-- What n byte steps make of the bytes byte_0(x) to byte_(n-1)(x): each step takes the bytes so far one row further and adds the
next byte by row 0 (40_table_generation.md R112; 41_accumulator_ops.md R135). -/
def laneSum : Nat → DWord → Word
  | 0, _ => 0#32
  | n + 1, x => nextRow (laneSum n x) ^^^ row0 (byteOf n x)

theorem nextRow_zero : nextRow 0#32 = 0#32 := by decide

/-- After eight steps byte_k has gone 7 - k rows further than row 0: the lanes of the fold. -/
theorem laneSum_eight (x : DWord) : laneSum 8 x = foldLanes genTable x := by
  simp only [laneSum, foldLanes, entry_genTable, nextRow_xor, nextRow_zero, BitVec.zero_xor]
  rfl

/-- n byte steps over the low bytes of w: the accumulator's n low bytes go through the lanes with them, the others move down. -/
theorem foldl_byteStep_range (acc w : DWord) (n : Nat) :
    (List.range n).foldl (fun a k => byteStep genTable a (byteOf k w)) acc =
      (laneSum n (acc ^^^ w)).setWidth 64 ^^^ acc >>> (8 * n) := by
  induction n with
  | zero => simp [laneSum]
  | succ n ih =>
    rw [List.range_succ, List.foldl_append, ih, List.foldl_cons, List.foldl_nil, byteStep_genTable, laneSum, nextRow,
      byteOf_xor, byteOf_xor, Nat.mul_succ, byteOf_zero_setWidth, byteOf_zero_ushiftRight, BitVec.ushiftRight_xor_distrib,
      setWidth_ushiftRight_eight, ← BitVec.shiftRight_add]
    simp only [BitVec.setWidth_xor, row0_xor]
    ac_rfl

/-- The fold law of R138, for every accumulator. -/
theorem fold8_eq_foldl_byteStep (acc w : DWord) :
    fold8 genTable acc w = (List.range 8).foldl (fun a k => byteStep genTable a (byteOf k w)) acc := by
  have hout : acc >>> (8 * 8) = 0#64 := BitVec.ushiftRight_eq_zero (by decide)
  rw [foldl_byteStep_range, laneSum_eight, hout, BitVec.xor_zero, fold8]

/-- Settles O17: the fold law holds for every accumulator, so also below 2^32. -/
theorem foldEqualsEightByteSteps : Obligations.FoldEqualsEightByteSteps := by
  unfold Obligations.FoldEqualsEightByteSteps
  exact fun acc w _ => fold8_eq_foldl_byteStep acc w

end Sys2Proof.Machine
end

section
/-! PROOF. The accumulator commands (41_accumulator_ops.md): what INIT, BYTE, FOLD8 and FINAL do in each case, with their examples,
and a stream fed through them (R142). -/

namespace Sys2Proof.Machine

/-! ## INIT and FINAL -/

section domain
variable {s : State}

theorem exec_init (s : State) : exec .init s = .next { s with acc := enterDomain s.seed, accValid := true } := rfl

theorem exec_final_of_invalid (hv : s.accValid = false) : exec .final s = .next (raiseFor .accNotValid .final s) :=
  congrArg _ (if_pos hv)

theorem exec_final_of_valid (hv : s.accValid = true) : exec .final s = .next { s with result := finish s.acc } :=
  congrArg _ (if_neg (by simp [hv]))

end domain

/-- Settles O12: INIT has one outcome; the corner case and the examples are its value at their seeds. -/
theorem initEntersComplementedDomain : Obligations.InitEntersComplementedDomain := by
  unfold Obligations.InitEntersComplementedDomain
  refine ⟨by decide, exec_init, fun s hs => ?_, fun s hs => ?_, fun s hs => ?_⟩ <;> rw [exec_init, hs] <;> rfl

/-- Settles O15: FINAL has two outcomes by ACC_VALID, never writes ACC, so a second one finds the same operand, and undoes INIT's
complement. -/
theorem finalExitsComplementedDomain : Obligations.FinalExitsComplementedDomain := by
  unfold Obligations.FinalExitsComplementedDomain
  refine ⟨by decide, fun s => ⟨exec_final_of_invalid, exec_final_of_valid, ⟨_, exec_init s, ?_⟩, fun t hv ht => ?_,
    fun hv ha => ?_⟩⟩
  · rw [exec_final_of_valid rfl, finish_enterDomain]
  · rw [exec_final_of_valid hv] at ht
    cases ht
    exact exec_final_of_valid (s := { s with result := finish s.acc }) hv
  · rw [exec_final_of_valid hv, ha]
    rfl

/-! ## BYTE and FOLD8 -/

section reduce
variable {s : State}

theorem reduceInto_of_no_table (ht : s.tblValid = false) (i : Instr) (v : DWord) :
    reduceInto i v s = raiseFor .tableNotReady i s :=
  if_pos ht

theorem reduceInto_of_no_acc (ht : s.tblValid = true) (hv : s.accValid = false) (i : Instr) (v : DWord) :
    reduceInto i v s = raiseFor .accNotValid i s := by
  simp [reduceInto, ht, hv]

theorem reduceInto_of_valid (ht : s.tblValid = true) (hv : s.accValid = true) (i : Instr) (v : DWord) :
    reduceInto i v s = { s with acc := v } := by
  simp [reduceInto, ht, hv]

theorem exec_byte (s : State) : exec .byte s = .next (reduceInto .byte (byteStep s.table s.acc (dataByte s)) s) := rfl

theorem exec_fold8 (s : State) : exec .fold8 s = .next (reduceInto .fold8 (fold8 s.table s.acc s.data) s) := rfl

theorem dataByte_eq (s : State) : dataByte s = s.data.extractLsb' 0 8 := by
  ext i hi
  simp [dataByte, lowHalf]

/-- In a state of the invariant with both flags set, BYTE writes the byte step over GenTable() by DATA[7:0]
(41_accumulator_ops.md R134). -/
theorem exec_byte_of_inv {v : DWord} (hs : Inv s) (ht : s.tblValid = true) (hv : s.accValid = true)
    (h : byteStep genTable s.acc (s.data.extractLsb' 0 8) = v) : exec .byte s = .next { s with acc := v } := by
  rw [exec_byte, reduceInto_of_valid ht hv, dataByte_eq, hs.table ht, h]

/-- In a state of the invariant with both flags set, FOLD8 writes what the lanes of GenTable() make of ACC ^ DATA
(41_accumulator_ops.md R137). -/
theorem exec_fold8_of_inv {v : DWord} (hs : Inv s) (ht : s.tblValid = true) (hv : s.accValid = true)
    (h : (laneSum 8 (s.acc ^^^ s.data)).setWidth 64 = v) : exec .fold8 s = .next { s with acc := v } := by
  rw [exec_fold8, reduceInto_of_valid ht hv, hs.table ht, fold8, ← laneSum_eight, h]

end reduce

/-- Settles O13: the checks in order, the byte step written out, and the examples by evaluating row 0. -/
theorem byteReducesOneByte : Obligations.ByteReducesOneByte := by
  unfold Obligations.ByteReducesOneByte
  refine ⟨by decide, fun s => ⟨fun ht => ?_, fun ht hv => ?_, fun ht hv => ?_, fun hs ht hv hb ha => ?_, fun hs ht hv hb ha => ?_,
    fun hs ht hv hb ha => ?_⟩⟩
  · rw [exec_byte, reduceInto_of_no_table ht]
    rfl
  · rw [exec_byte, reduceInto_of_no_acc ht hv]
    rfl
  · rw [exec_byte, reduceInto_of_valid ht hv, dataByte_eq]
    rfl
  · exact exec_byte_of_inv (v := s.acc) hs ht hv (by rw [hb, ha, byteStep_genTable]; decide)
  · exact exec_byte_of_inv hs ht hv (by rw [hb, ha, byteStep_genTable]; decide)
  · exact exec_byte_of_inv hs ht hv (by rw [hb, ha, byteStep_genTable]; decide)

/-- Settles O14: the checks in order, the lanes written out, and the corner cases by evaluating the rows. -/
theorem fold8ReducesEightBytes : Obligations.Fold8ReducesEightBytes := by
  unfold Obligations.Fold8ReducesEightBytes
  refine ⟨by decide, fun s => ⟨fun ht => ?_, fun ht hv => ?_, fun x ht hv hx => ?_, fun hs ht hv => ⟨fun hd => ?_,
    fun ha hd => ?_, fun ha hd => ?_, fun ha hd => ?_, fun ha hd => ?_⟩⟩⟩
  · rw [exec_fold8, reduceInto_of_no_table ht]
    rfl
  · rw [exec_fold8, reduceInto_of_no_acc ht hv]
    rfl
  · rw [exec_fold8, reduceInto_of_valid ht hv, fold8, ← hx]
    rfl
  · have hx : s.acc ^^^ s.data = 0#64 := by
      rw [hd, ← lowHalf, setWidth_lowHalf (hs.sequencer.accHigh hv), BitVec.xor_self]
    exact exec_fold8_of_inv hs ht hv (by rw [hx]; decide +kernel)
  all_goals exact exec_fold8_of_inv hs ht hv (by rw [ha, hd]; decide +kernel)

/-! ## A stream -/

/-- The checksum of any bytes, none included, leaves the domain after the byte steps (42_compute_dispatch.md R160). -/
theorem crc32cSpec_eq_finish (seed : Word) (bs : List Byte) :
    crc32cSpec seed bs = finish (bs.foldl (byteStep genTable) (enterDomain seed)) := by
  unfold crc32cSpec
  split
  · subst bs
    exact (finish_enterDomain seed).symm
  · rfl

theorem lowHalf_setLowHalf (x : DWord) (v : Word) : lowHalf (setLowHalf x v) = v :=
  BitVec.extractLsb'_append_eq_right

/-- Both halves written, whatever the pair held (43_host_access_and_control.md R202). -/
theorem setHighHalf_setLowHalf (x d : DWord) : setHighHalf (setLowHalf x (lowHalf d)) (highHalf d) = d := by
  rw [setHighHalf, lowHalf_setLowHalf, highHalf, lowHalf, BitVec.extractLsb'_append_extractLsb'_eq_extractLsb' (by decide)]
  simp

/-- A host write to a register, placed at its offset, is answered and reaches it (43_host_access_and_control.md R202). -/
theorem step_of_inputWr {s : State} {r : Reg} {v : Word} {rest : List Input} (hi : s.inputs = inputWr r v :: rest)
    (hw : r.offset.toNat < 0x3000) (hl : r.offset.toNat % 4 = 0) (hr : Reg.ofOffset r.offset = r) :
    step s = writeRegister r v s.atCommand := by
  rw [step_of_inputs_cons hi]
  refine (hostAccess_write hw hl v s.popped).trans ?_
  rw [hr]
  rfl

/-- An accepted command first in the queue has its issue rule. -/
theorem step_of_inputCmd {s : State} {i : Instr} {rest : List Input} (hi : s.inputs = inputCmd i :: rest) (hb : s.busy = false)
    (he : s.errcode = .none) : step s = exec i s.atCommand :=
  step_of_command hb he (nextIsCommand_of_head (by rw [hi]; rfl))

/-- Between INIT and FINAL of a stream, with ACC = acc and the moves still to come (41_accumulator_ops.md R142). -/
structure Streaming (acc : DWord) (rest : List Input) (s : State) : Prop where
  table : s.table = genTable
  tblValid : s.tblValid = true
  acc_eq : s.acc = acc
  accValid : s.accValid = true
  busy : s.busy = false
  errcode : s.errcode = .none
  inputs : s.inputs = rest

section stream
variable {s : State} {acc : DWord} {rest : List Input}

/-- A CMD write or a register write taken from the queue and answered. -/
theorem Streaming.atCommand {i : Input} (h : Streaming acc (i :: rest) s) : Streaming acc rest s.atCommand :=
  ⟨h.table, h.tblValid, h.acc_eq, h.accValid, h.busy, h.errcode, congrArg List.tail h.inputs⟩

theorem Streaming.withData (h : Streaming acc rest s) (x : DWord) : Streaming acc rest { s with data := x } :=
  ⟨h.table, h.tblValid, h.acc_eq, h.accValid, h.busy, h.errcode, h.inputs⟩

theorem Streaming.withAcc (h : Streaming acc rest s) (a : DWord) : Streaming a rest { s with acc := a } :=
  ⟨h.table, h.tblValid, rfl, h.accValid, h.busy, h.errcode, h.inputs⟩

theorem Streaming.step_dataLo {v : Word} (h : Streaming acc (inputWr .dataLo v :: rest) s) :
    ∃ t, step s = .next t ∧ Streaming acc rest t ∧ t.data = setLowHalf s.data v :=
  ⟨_, step_of_inputWr h.inputs (by decide) (by decide) rfl, h.atCommand.withData _, rfl⟩

theorem Streaming.step_dataHi {v : Word} (h : Streaming acc (inputWr .dataHi v :: rest) s) :
    ∃ t, step s = .next t ∧ Streaming acc rest t ∧ t.data = setHighHalf s.data v :=
  ⟨_, step_of_inputWr h.inputs (by decide) (by decide) rfl, h.atCommand.withData _, rfl⟩

theorem Streaming.step_byte (h : Streaming acc (inputCmd .byte :: rest) s) :
    ∃ t, step s = .next t ∧ Streaming (byteStep genTable acc (dataByte s)) rest t := by
  refine ⟨_, ?_, h.atCommand.withAcc _⟩
  rw [step_of_inputCmd h.inputs h.busy h.errcode, exec_byte, reduceInto_of_valid h.atCommand.tblValid h.atCommand.accValid,
    h.atCommand.table, h.atCommand.acc_eq]
  rfl

theorem Streaming.step_fold8 (h : Streaming acc (inputCmd .fold8 :: rest) s) :
    ∃ t, step s = .next t ∧ Streaming (fold8 genTable acc s.data) rest t := by
  refine ⟨_, ?_, h.atCommand.withAcc _⟩
  rw [step_of_inputCmd h.inputs h.busy h.errcode, exec_fold8, reduceInto_of_valid h.atCommand.tblValid h.atCommand.accValid,
    h.atCommand.table, h.atCommand.acc_eq]
  rfl

theorem Streaming.step_final (h : Streaming acc (inputCmd .final :: rest) s) :
    ∃ t, step s = .next t ∧ t.inputs = rest ∧ t.errcode = .none ∧ t.busy = false ∧ t.result = finish acc := by
  refine ⟨{ s.atCommand with result := finish s.acc }, ?_, h.atCommand.inputs, h.errcode, h.busy, congrArg finish h.acc_eq⟩
  rw [step_of_inputCmd h.inputs h.busy h.errcode, exec_final_of_valid h.atCommand.accValid]
  rfl

/-- One command of a stream, its operand written first, takes ACC through the bytes it feeds. -/
theorem Streaming.run_op {op : StreamOp} (h : Streaming acc (op.accesses ++ rest) s) :
    ∃ t, runSteps op.accesses.length s = .next t ∧ Streaming (op.bytes.foldl (byteStep genTable) acc) rest t := by
  cases op with
  | byte d =>
    obtain ⟨t, hst, ht, hdata⟩ := h.step_dataLo
    obtain ⟨u, htu, hu⟩ := ht.step_byte
    have hbyte : dataByte t = d.extractLsb' 0 8 := by rw [dataByte, hdata, lowHalf_setLowHalf]
    rw [hbyte] at hu
    exact ⟨u, (runSteps_succ hst 1).trans (runSteps_one htu), hu⟩
  | word d =>
    obtain ⟨t, hst, ht, hlo⟩ := h.step_dataLo
    obtain ⟨u, htu, hu, hhi⟩ := ht.step_dataHi
    obtain ⟨v, huv, hv⟩ := hu.step_fold8
    rw [hhi, hlo, setHighHalf_setLowHalf, fold8_eq_foldl_byteStep] at hv
    refine ⟨v, (runSteps_succ hst 2).trans ((runSteps_succ htu 1).trans (runSteps_one huv)), ?_⟩
    rw [StreamOp.bytes, List.foldl_map]
    exact hv

/-- The commands of a stream take ACC through all the bytes fed, in order. -/
theorem Streaming.run_ops {ops : List StreamOp} (h : Streaming acc (ops.flatMap StreamOp.accesses ++ rest) s) :
    ∃ t, runSteps (ops.flatMap StreamOp.accesses).length s = .next t ∧
      Streaming ((ops.flatMap StreamOp.bytes).foldl (byteStep genTable) acc) rest t := by
  induction ops generalizing s acc with
  | nil => exact ⟨s, rfl, h⟩
  | cons op ops ih =>
    rw [List.flatMap_cons, List.append_assoc] at h
    obtain ⟨t, hst, ht⟩ := h.run_op
    obtain ⟨u, htu, hu⟩ := ih ht
    refine ⟨u, ?_, ?_⟩
    · rw [List.flatMap_cons, List.length_append, runSteps_add hst, htu]
    · rw [List.flatMap_cons, List.foldl_append]
      exact hu

/-- SEED written and INIT accepted begin a stream. -/
theorem exists_streaming {seed : Word} (hs : Inv s) (ht : s.tblValid = true) (hb : s.busy = false) (he : s.errcode = .none)
    (hi : s.inputs = inputWr .seed seed :: inputCmd .init :: rest) :
    ∃ t, runSteps 2 s = .next t ∧ Streaming (enterDomain seed) rest t := by
  have hseed : step s = .next { s.atCommand with seed := seed } := step_of_inputWr hi (by decide) (by decide) rfl
  have htail : s.atCommand.inputs = inputCmd .init :: rest := congrArg List.tail hi
  have hinit := step_of_inputCmd (s := { s.atCommand with seed := seed }) htail hb he
  exact ⟨_, (runSteps_succ hseed 1).trans (runSteps_one hinit), hs.table ht, ht, rfl, rfl, hb, he, congrArg List.tail htail⟩

end stream

/-- Settles O18: SEED and INIT enter the domain, each command takes ACC through its bytes (FOLD8 by the fold law), and FINAL
leaves the domain. -/
theorem streamMatchesReference : Obligations.StreamMatchesReference := by
  unfold Obligations.StreamMatchesReference
  intro s seed ops rest hs ht hb he hi
  rw [streamAccesses, List.append_assoc, List.append_assoc] at hi
  obtain ⟨t, hst, h⟩ := exists_streaming hs ht hb he hi
  obtain ⟨u, htu, hu⟩ := h.run_ops
  obtain ⟨v, huv, hin, herr, hbusy, hres⟩ := hu.step_final
  refine ⟨v, ?_, hin, herr, hbusy, by rw [hres, crc32cSpec_eq_finish]⟩
  rw [streamAccesses, List.length_append, List.length_append, Nat.add_assoc]
  exact (runSteps_add hst _).trans ((runSteps_add htu 1).trans (runSteps_one huv))

end Sys2Proof.Machine
end

section
/-! PROOF. COMPUTE at its CMD write (42_compute_dispatch.md R162-R164, R171): Norm by cases, the two issue rules check by check, and
the empty buffer. -/

namespace Sys2Proof.Machine

/-! ## Norm -/

section norm
variable {cur : DWord} {rem : Word}

theorem normTail_of_pos (h : 0 < rem.toNat) : normTail cur rem = .tail :=
  if_pos h

theorem normTail_of_zero (h : rem.toNat = 0) : normTail cur rem = .finish :=
  if_neg (by omega)

theorem normBulk_of_le (h : 8 ≤ rem.toNat) : normBulk cur rem = .bulk :=
  if_pos h

theorem normBulk_of_lt (h : rem.toNat < 8) : normBulk cur rem = normTail cur rem :=
  if_neg (by omega)

theorem normHead_of_zero (h : rem.toNat = 0) : normHead cur rem = .finish :=
  if_pos h

theorem normHead_of_unaligned (hr : rem.toNat ≠ 0) (hc : cur.toNat % 8 ≠ 0) : normHead cur rem = .head := by
  rw [normHead, if_neg hr, if_pos hc]

theorem normHead_of_aligned (hr : rem.toNat ≠ 0) (hc : cur.toNat % 8 = 0) : normHead cur rem = normBulk cur rem := by
  rw [normHead, if_neg hr, if_neg (not_not.mpr hc)]

end norm

/-- Settles O22: each clause is one branch of Norm; with no byte left BULK falls through to TAIL. -/
theorem phaseNormalisation : Obligations.PhaseNormalisation := by
  unfold Obligations.PhaseNormalisation
  refine fun cur rem => ⟨?_, fun hr => normHead_of_unaligned (BitVec.toNat_ne.mp hr),
    fun hr => normHead_of_aligned (BitVec.toNat_ne.mp hr), normBulk_of_le, normBulk_of_lt, normTail_of_pos⟩
  rintro rfl
  exact ⟨normHead_of_zero rfl, (normBulk_of_lt (by decide)).trans (normTail_of_zero rfl), normTail_of_zero rfl⟩

/-! ## The checks of the issue rules -/

section issue
variable {s : State}

theorem outOfRange_of_lt (h : 2 ^ 64 < s.addr.toNat + s.len.toNat) : outOfRange s = true :=
  decide_eq_true h

theorem outOfRange_of_le (h : s.addr.toNat + s.len.toNat ≤ 2 ^ 64) : outOfRange s = false :=
  decide_eq_false (by omega)

/-- A buffer of no bytes is in range at every address. -/
theorem range_of_empty (h : s.len = 0#32) : s.addr.toNat + s.len.toNat ≤ 2 ^ 64 := by
  have ha := s.addr.isLt
  rw [h, BitVec.toNat_zero]
  omega

theorem exec_computeSw_of_outOfRange (hr : 2 ^ 64 < s.addr.toNat + s.len.toNat) :
    exec .computeSw s = .next (raiseFor .range .computeSw s) :=
  congrArg _ (if_pos (outOfRange_of_lt hr))

theorem exec_computeSw_of_empty (hl : s.len = 0#32) : exec .computeSw s = .next { s with result := s.seed } := by
  simp [exec, execComputeSw, issueSoftware, outOfRange_of_le (range_of_empty hl), hl, seedOperand]

theorem exec_computeSw_of_no_table (hr : s.addr.toNat + s.len.toNat ≤ 2 ^ 64) (hl : s.len ≠ 0#32) (ht : s.tblValid = false) :
    exec .computeSw s = .next (raiseFor .tableNotReady .computeSw s) := by
  simp [exec, execComputeSw, issueSoftware, outOfRange_of_le hr, hl, ht]

/-- The accepted COMPUTE.SW (42_compute_dispatch.md R162). -/
def State.issuedSoftware (s : State) : State :=
  beginLong (normHead s.addr s.len) { latchBuffer s with acc := enterDomain s.seed, accValid := true }

theorem exec_computeSw_of_accepted (hr : s.addr.toNat + s.len.toNat ≤ 2 ^ 64) (hl : s.len ≠ 0#32) (ht : s.tblValid = true) :
    exec .computeSw s = .next s.issuedSoftware := by
  simp [exec, execComputeSw, issueSoftware, outOfRange_of_le hr, hl, ht, State.issuedSoftware, seedOperand]

theorem exec_computeHw_of_unavailable (ha : s.hwAvail = false) :
    exec .computeHw s = .next (raiseFor .hwUnavailable .computeHw s) :=
  congrArg _ (if_pos ha)

theorem exec_computeHw_of_outOfRange (ha : s.hwAvail = true) (hr : 2 ^ 64 < s.addr.toNat + s.len.toNat) :
    exec .computeHw s = .next (raiseFor .range .computeHw s) := by
  simp [exec, execComputeHw, issueHardware, ha, outOfRange_of_lt hr]

theorem exec_computeHw_of_empty (ha : s.hwAvail = true) (hl : s.len = 0#32) :
    exec .computeHw s = .next { s with result := s.seed } := by
  simp [exec, execComputeHw, issueHardware, ha, outOfRange_of_le (range_of_empty hl), hl, seedOperand]

/-- The accepted COMPUTE.HW (42_compute_dispatch.md R171). -/
def State.issuedHardware (s : State) : State :=
  beginLong .hwrun { latchBuffer s with lseed := s.seed }

theorem exec_computeHw_of_accepted (ha : s.hwAvail = true) (hr : s.addr.toNat + s.len.toNat ≤ 2 ^ 64) (hl : s.len ≠ 0#32) :
    exec .computeHw s = .next s.issuedHardware := by
  simp [exec, execComputeHw, issueHardware, ha, outOfRange_of_le hr, hl, State.issuedHardware, seedOperand]

/-- The first phase of a buffer that is not empty (42_compute_dispatch.md R164). -/
theorem normHead_of_nonempty {addr : DWord} {len : Word} (hl : len ≠ 0#32) :
    normHead addr len = if addr.toNat % 8 ≠ 0 then .head else if 8 ≤ len.toNat then .bulk else .tail := by
  have hpos : len.toNat ≠ 0 := BitVec.toNat_ne.mp hl
  by_cases hc : addr.toNat % 8 = 0
  · rw [normHead_of_aligned hpos hc, if_neg (not_not.mpr hc), normBulk, normTail_of_pos (by omega)]
  · rw [normHead_of_unaligned hpos hc, if_pos hc]

end issue

/-- Settles O19: one lemma per check of R162, then the accepted command with Norm(HEAD) written out. -/
theorem softwareIssueFollowsItsChecks : Obligations.SoftwareIssueFollowsItsChecks := by
  unfold Obligations.SoftwareIssueFollowsItsChecks
  refine fun s => ⟨exec_computeSw_of_outOfRange, fun _ => exec_computeSw_of_empty, exec_computeSw_of_no_table, fun hr hl ht => ?_⟩
  rw [exec_computeSw_of_accepted hr hl ht, State.issuedSoftware, normHead_of_nonempty hl]
  rfl

/-- Settles O20: one lemma per check of R171, HW_UNAVAILABLE first, then the accepted command. -/
theorem hardwareIssueFollowsItsChecks : Obligations.HardwareIssueFollowsItsChecks := by
  unfold Obligations.HardwareIssueFollowsItsChecks
  exact fun s => ⟨exec_computeHw_of_unavailable, exec_computeHw_of_outOfRange, fun ha _ => exec_computeHw_of_empty ha,
    exec_computeHw_of_accepted⟩

/-- Settles O21: with LEN = 0 no address is out of range, and the check for LEN = 0 comes before that of the table. -/
theorem emptyBufferReturnsTheSeed : Obligations.EmptyBufferReturnsTheSeed := by
  unfold Obligations.EmptyBufferReturnsTheSeed
  exact ⟨fun _ => if_pos rfl, fun s hl => ⟨exec_computeSw_of_empty hl, fun ha => exec_computeHw_of_empty ha hl⟩⟩

end Sys2Proof.Machine
end

section
/-! PROOF. The engine's steps (42_compute_dispatch.md R165-R169, R173-R175, R178): which states have a step and the outcome each has,
the refused read, the hardware path's contract, and what no step depends on. -/

namespace Sys2Proof.Machine

/-! ## Which states have which step -/

section engine
variable {s t : State}

/-- A step of the software path has the bytes it takes, and a BULK step is aligned (42_compute_dispatch.md R165-R167). -/
structure CountsFit (s : State) : Prop where
  byte : s.phase = .head ∨ s.phase = .tail → s.rem.toNat ≠ 0
  bulk : s.phase = .bulk → s.cur.toNat % 8 = 0 ∧ 8 ≤ s.rem.toNat

theorem countsFit_of_inv (hs : Inv s) : CountsFit s where
  byte hp := by
    obtain hp | hp := hp
    · exact Nat.ne_of_gt (hs.head hp).1
    · exact Nat.ne_of_gt (hs.sequencer.tail hp).1
  bulk := hs.sequencer.bulk

theorem countsFit_of_engineStep (h : engineStep s = .next t) : CountsFit s := by
  unfold engineStep at h
  constructor
  · rintro (hp | hp) <;> rw [hp] at h <;> exact (consumeByte_next h).1
  · intro hp
    rw [hp] at h
    obtain ⟨hc, hr, -⟩ := bulkStep_next h
    exact ⟨hc, hr⟩

theorem consumeByte_of_read {norm : DWord → Word → Phase} {b : Byte} (hr : s.rem.toNat ≠ 0) (hm : s.mem.read s.cur = some b) :
    consumeByte norm s = .next (s.consumed 1 (byteStep s.table s.acc b) norm) := by
  rw [consumeByte, if_neg hr, hm]
  rfl

theorem consumeByte_of_refused {norm : DWord → Word → Phase} (hr : s.rem.toNat ≠ 0) (hm : s.mem.readable s.cur = false) :
    consumeByte norm s = .next (abortSoftware s) := by
  rw [consumeByte, if_neg hr, (s.mem.read_eq_none_iff s.cur).mpr hm]

theorem bulkStep_of_read {w : DWord} (hc : s.cur.toNat % 8 = 0) (hr : 8 ≤ s.rem.toNat) (hm : s.mem.read8 s.cur = some w) :
    bulkStep s = .next (s.consumed 8 (fold8 s.table s.acc w) normBulk) := by
  rw [bulkStep, if_neg (not_not.mpr hc), if_neg (by omega), hm]
  rfl

theorem bulkStep_of_refused (hc : s.cur.toNat % 8 = 0) (hr : 8 ≤ s.rem.toNat) (hm : s.mem.read8 s.cur = none) :
    bulkStep s = .next (abortSoftware s) := by
  rw [bulkStep, if_neg (not_not.mpr hc), if_neg (by omega), hm]

/-- The converse of engined_of_engineStep: where the counts fit, the engine step has the outcome Engined names. -/
theorem engineStep_of_engined (hf : CountsFit s) (h : Engined s t) : engineStep s = .next t := by
  cases h with
  | refused h =>
    obtain ⟨hp, hm⟩ | ⟨hp, hm⟩ := h
    · have hr := hf.byte hp
      obtain hp | hp := hp <;> rw [engineStep, hp] <;> exact consumeByte_of_refused hr hm
    · rw [engineStep, hp]
      exact bulkStep_of_refused (hf.bulk hp).1 (hf.bulk hp).2 ((s.mem.read8_eq_none_iff_exists s.cur).mpr hm)
  | head hp hr b hm =>
    rw [engineStep, hp]
    exact consumeByte_of_read (Nat.ne_of_gt hr) hm
  | bulk hp hc hr w hm =>
    rw [engineStep, hp]
    exact bulkStep_of_read hc hr hm
  | tail hp hr b hm =>
    rw [engineStep, hp]
    exact consumeByte_of_read (Nat.ne_of_gt hr) hm
  | finish hp => exact engineStep_of_finish hp
  | tblgen hp => exact engineStep_of_tblgen hp
  | hwrun hp bs hm => exact engineStep_of_hwrun hp (Memory.readRange_length hm) (Memory.holds_of_readRange hm)
  | hwRefused hp hm =>
    rw [engineStep, hp]
    simp only [hwrunStep, hm]

theorem engineTurn_of_busy (hb : s.busy = true) : engineTurn s = engineStep s :=
  if_pos hb

/-- While BUSY = 1 the engine's turn is decided by the counts and Engined. -/
theorem engineTurn_eq_next_iff (hb : s.busy = true) : engineTurn s = .next t ↔ CountsFit s ∧ Engined s t := by
  rw [engineTurn_of_busy hb]
  exact ⟨fun h => ⟨countsFit_of_engineStep h, engined_of_engineStep h⟩, fun ⟨hf, h⟩ => engineStep_of_engined hf h⟩

/-- On the engine's turn a running command of a state of the invariant has the step Engined names. -/
theorem step_of_engined (hs : Inv s) (hn : s.nextIsEngine = true) (hb : s.busy = true) (h : Engined s.popped t) :
    step s = .next t := by
  rw [step_of_nextIsEngine_of_busy hn hb, engineStep_of_engined (countsFit_of_inv hs.popped) h]

theorem toNat_rem_sub_add {n : Nat} (hn : n ≤ s.rem.toNat) : (s.rem - BitVec.ofNat 32 n).toNat + n = s.rem.toNat := by
  have hrem : (s.rem - BitVec.ofNat 32 n).toNat = s.rem.toNat - n := toNat_rem_consumed hn s.acc normHead
  omega

end engine

/-- Settles O23: the invariant gives HEAD and TAIL a byte to take, and a readable one is consumed. -/
theorem headAndTailConsumeOneByte : Obligations.HeadAndTailConsumeOneByte := by
  unfold Obligations.HeadAndTailConsumeOneByte
  refine fun s b hs hn hb hm => ⟨fun hp => ?_, fun hp => ?_⟩
  · have hr : 1 ≤ s.rem.toNat := (hs.head hp).1
    exact ⟨step_of_engined hs hn hb (.head (s := s.popped) hp hr b hm), toNat_rem_sub_add hr⟩
  · have hr : 1 ≤ s.rem.toNat := (hs.sequencer.tail hp).1
    exact ⟨step_of_engined hs hn hb (.tail (s := s.popped) hp hr b hm), toNat_rem_sub_add hr⟩

/-- Settles O24: the invariant aligns BULK over eight bytes or more, and those held at CUR are read as one word. -/
theorem bulkFoldsEightBytes : Obligations.BulkFoldsEightBytes := by
  unfold Obligations.BulkFoldsEightBytes
  intro s b0 b1 b2 b3 b4 b5 b6 b7 hs hn hb hp hm
  obtain ⟨hc, hr⟩ := hs.sequencer.bulk hp
  exact ⟨step_of_engined hs hn hb (.bulk (s := s.popped) hp hc hr _ (Memory.read8_of_holds hm)), toNat_rem_sub_add hr⟩

/-- Settles O27: FINISH delivers the complement of ACC, which a kept buffer leaves as computed. -/
theorem finishDeliversTheResult : Obligations.FinishDeliversTheResult := by
  unfold Obligations.FinishDeliversTheResult
  intro s hn hb hp hd
  rw [step_of_nextIsEngine_of_busy hn hb, engineStep_of_finish (s := s.popped) hp, deliverResult_of_kept (s := s.popped) hd]
  rfl

/-! ## Refused reads -/

section refused
variable {s : State}

theorem abortSoftware_of_none (h : s.errcode = .none) :
    abortSoftware s = { s with
      errcode := .busError, errinfo := s.cur, faulted := true, accValid := false, busy := false, phase := .idle
      acc := (abortSoftware s).acc, draws := (abortSoftware s).draws } := by
  rw [abortSoftware, recordError_of_none h]
  rfl

theorem abortSoftware_of_some (h : s.errcode ≠ .none) :
    abortSoftware s = { s with
      errovf := true, faulted := true, accValid := false, busy := false, phase := .idle
      acc := (abortSoftware s).acc, draws := (abortSoftware s).draws } := by
  rw [abortSoftware, recordError_of_some h]
  rfl

theorem abortHardware_of_none (h : s.errcode = .none) :
    abortHardware s = { s with
      errcode := .busError, errinfo := drawRefused s, faulted := true, busy := false, phase := .idle
      draws := (abortHardware s).draws } := by
  rw [abortHardware, recordError_of_none h]
  rfl

theorem abortHardware_of_some (h : s.errcode ≠ .none) :
    abortHardware s = { s with
      errovf := true, faulted := true, busy := false, phase := .idle, draws := (abortHardware s).draws } := by
  rw [abortHardware, recordError_of_some h]
  rfl

/-- The address drawn is one of the refused addresses, if there are any (42_compute_dispatch.md R174). -/
theorem drawRefused_mem (h : s.mem.refused s.cur s.rem.toNat ≠ []) : drawRefused s ∈ s.mem.refused s.cur s.rem.toNat := by
  have hlt := Nat.mod_lt (Config.hwDraw s.draws) (List.length_pos_iff.mpr h)
  simp only [drawRefused, List.getD_eq_getElem _ _ hlt, List.getElem_mem]

/-- The address the hardware path reports is a refused one of the buffer (42_compute_dispatch.md R174). -/
theorem drawRefused_eq_of_refused (h : s.mem.readRange s.cur s.rem.toNat = none) :
    ∃ k, k < s.rem.toNat ∧ s.mem.readable (s.cur + BitVec.ofNat 64 k) = false ∧ drawRefused s = s.cur + BitVec.ofNat 64 k := by
  obtain ⟨hr, k, hk, hd⟩ := s.mem.mem_refused (drawRefused_mem ((s.mem.readRange_eq_none_iff _ _).mp h))
  exact ⟨k, hk, hd ▸ hr, hd⟩

end refused

/-- Settles O26: the two aborts are one outcome, BUS_ERROR recorded or, with an error already recorded, ERROVF set. -/
theorem refusedReadAbortsSoftwarePath : Obligations.RefusedReadAbortsSoftwarePath := by
  unfold Obligations.RefusedReadAbortsSoftwarePath
  intro s hs hn hb h
  exact ⟨_, step_of_engined hs hn hb (.refused (s := s.popped) h), abortSoftware_of_none (s := s.popped),
    abortSoftware_of_some (s := s.popped)⟩

/-- Settles O28: the range read answers the bytes held, or is refused and the drawn address is one of the refused ones. -/
theorem hardwareStepMeetsItsContract : Obligations.HardwareStepMeetsItsContract := by
  unfold Obligations.HardwareStepMeetsItsContract
  refine fun s hn hb hp => ⟨fun bs hl hm hd => ?_, fun hr => ?_⟩ <;> rw [step_of_nextIsEngine_of_busy hn hb]
  · rw [engineStep_of_hwrun (s := s.popped) hp hl hm, deliverResult_of_kept (s := s.popped) hd]
    rfl
  · have hnone := (s.mem.readRange_eq_none_iff_exists s.cur s.rem.toNat).mpr hr
    obtain ⟨k, hk, hkr, hdraw⟩ := drawRefused_eq_of_refused (s := s.popped) hnone
    have hstep : engineStep s.popped = .next (abortHardware s.popped) := by
      simp only [engineStep, popped_phase, hp, hwrunStep, popped_mem, popped_cur, popped_rem, hnone]
    refine ⟨_, k, hk, hkr, hstep, fun he => ?_, abortHardware_of_some (s := s.popped)⟩
    rw [← popped_cur, ← hdraw]
    exact abortHardware_of_none (s := s.popped) he

/-! ## What a running command does not depend on -/

section noninterference
variable {s t : State}

/-- s with other operand registers (42_compute_dispatch.md R175). -/
def State.withOperands (s : State) (seed len : Word) (addr : DWord) : State :=
  { s with seed := seed, len := len, addr := addr }

theorem abortSoftware_withOperands (seed len : Word) (addr : DWord) (s : State) :
    abortSoftware (s.withOperands seed len addr) = (abortSoftware s).withOperands seed len addr := by
  unfold abortSoftware recordError
  split <;> simp_all [State.withOperands, endLong]

theorem abortHardware_withOperands (seed len : Word) (addr : DWord) (s : State) :
    abortHardware (s.withOperands seed len addr) = (abortHardware s).withOperands seed len addr := by
  unfold abortHardware recordError
  split <;> simp_all [State.withOperands, endLong, drawRefused]

theorem deliverResult_withOperands (v : Word) (seed len : Word) (addr : DWord) (s : State) :
    deliverResult v (s.withOperands seed len addr) = (deliverResult v s).withOperands seed len addr := by
  unfold deliverResult
  split <;> simp_all [State.withOperands]

/-- The engine works from what was latched: other operand registers are carried over each of its steps. -/
theorem engined_withOperands (seed len : Word) (addr : DWord) (h : Engined s t) :
    Engined (s.withOperands seed len addr) (t.withOperands seed len addr) := by
  cases h with
  | refused h =>
    rw [← abortSoftware_withOperands]
    exact .refused h
  | head hp hr b hm => exact .head (s := s.withOperands seed len addr) hp hr b hm
  | bulk hp hc hr w hm => exact .bulk (s := s.withOperands seed len addr) hp hc hr w hm
  | tail hp hr b hm => exact .tail (s := s.withOperands seed len addr) hp hr b hm
  | finish hp =>
    have h := Engined.finish (s := s.withOperands seed len addr) hp
    rwa [deliverResult_withOperands] at h
  | tblgen hp => exact .tblgen (s := s.withOperands seed len addr) hp
  | hwrun hp bs hm =>
    have h := Engined.hwrun (s := s.withOperands seed len addr) hp bs hm
    rwa [deliverResult_withOperands] at h
  | hwRefused hp hm =>
    rw [← abortHardware_withOperands]
    exact .hwRefused hp hm

/-- s with another error state (60_exceptions.md R224). -/
def State.withError (s : State) (c : ErrCode) (v : Bool) (i : DWord) (f : Bool) : State :=
  { s with errcode := c, errovf := v, errinfo := i, faulted := f }

theorem deliverResult_withError (r : Word) (c : ErrCode) (v : Bool) (i : DWord) (f : Bool) (s : State) :
    deliverResult r (s.withError c v i f) = (deliverResult r s).withError c v i f := by
  unfold deliverResult
  split <;> simp_all [State.withError]

/-- u is t but for the error state (42_compute_dispatch.md R178). -/
def SameButError (t u : State) : Prop :=
  u = { t with errcode := u.errcode, errovf := u.errovf, errinfo := u.errinfo, faulted := u.faulted }

/-- With an error already recorded, u has it and its information still, and ERROVF is set (60_exceptions.md R224). -/
def OverflowsError (c : ErrCode) (i : DWord) (u : State) : Prop :=
  c ≠ .none → u.errcode = c ∧ u.errinfo = i ∧ u.errovf = true

/-- An engine step over another error state has the same outcome up to it, and where it recorded an error it now overflows. -/
theorem exists_engined_withError (c : ErrCode) (v : Bool) (i : DWord) (f : Bool) (h : Engined s t) :
    ∃ u, Engined (s.withError c v i f) u ∧ SameButError t u ∧ (t.errcode = s.errcode ∨ OverflowsError c i u) := by
  cases h with
  | refused h =>
    refine ⟨_, .refused h, ?_, .inr fun hc => ?_⟩
    · unfold SameButError abortSoftware
      rw [recordError_frame, recordError_frame .busError s.cur]
      rfl
    · rw [abortSoftware_of_some (s := s.withError c v i f) hc]
      exact ⟨rfl, rfl, rfl⟩
  | head hp hr b hm => exact ⟨_, .head (s := s.withError c v i f) hp hr b hm, rfl, .inl rfl⟩
  | bulk hp hc hr w hm => exact ⟨_, .bulk (s := s.withError c v i f) hp hc hr w hm, rfl, .inl rfl⟩
  | tail hp hr b hm => exact ⟨_, .tail (s := s.withError c v i f) hp hr b hm, rfl, .inl rfl⟩
  | finish hp =>
    refine ⟨_, .finish (s := s.withError c v i f) hp, ?_, .inl (by simp)⟩
    rw [deliverResult_withError]
    rfl
  | tblgen hp => exact ⟨_, .tblgen (s := s.withError c v i f) hp, rfl, .inl rfl⟩
  | hwrun hp bs hm =>
    refine ⟨_, .hwrun (s := s.withError c v i f) hp bs hm, ?_, .inl (by simp)⟩
    rw [deliverResult_withError]
    rfl
  | hwRefused hp hm =>
    refine ⟨_, .hwRefused (s := s.withError c v i f) hp hm, ?_, .inr fun hc => ?_⟩
    · unfold SameButError
      rw [abortHardware_frame, abortHardware_frame s]
      rfl
    · rw [abortHardware_of_some (s := s.withError c v i f) hc]
      exact ⟨rfl, rfl, rfl⟩

/-- A word written to CMD while BUSY = 1 reaches the error state alone (60_exceptions.md R225). -/
theorem step_of_command_while_busy {w : Word} (hb : s.busy = true) (hc : s.nextIsCommand w = true) :
    step s = .next (raiseForWord .cmdWhileBusy w s.atCommand) := by
  rw [step_of_nextIsCommand hc, submitCommand_of_busy (s := s.atCommand) hb]

end noninterference

/-- Settles O29: operand registers are carried over every engine step, and a write to one is a write to that register alone. -/
theorem operandsAreLatchedAtIssue : Obligations.OperandsAreLatchedAtIssue := by
  unfold Obligations.OperandsAreLatchedAtIssue
  refine ⟨fun s t seed len addr hb h => ?_, fun s v rest _ => ⟨fun hi => ?_, fun hi => ?_, fun hi => ?_, fun hi => ?_⟩⟩
  · obtain ⟨hf, he⟩ := (engineTurn_eq_next_iff hb).mp h
    exact (engineTurn_eq_next_iff (s := s.withOperands seed len addr) hb).mpr
      ⟨⟨hf.byte, hf.bulk⟩, engined_withOperands seed len addr he⟩
  all_goals exact step_of_inputWr hi (by decide) (by decide) rfl

/-- Settles O30: a discarded word records an error alone, another error state is carried over every engine step, and recording an
error keeps the one there is. -/
theorem runningCommandIgnoresTheErrorState : Obligations.RunningCommandIgnoresTheErrorState := by
  unfold Obligations.RunningCommandIgnoresTheErrorState
  refine ⟨fun s w hb hc => ?_, fun s t c v i f hb h => ?_, fun s t hb he h => ?_⟩
  · refine ⟨_, step_of_command_while_busy hb hc, ?_⟩
    rw [raiseForWord, recordError_frame, recordError_faulted]
    rfl
  · obtain ⟨hf, he⟩ := (engineTurn_eq_next_iff hb).mp h
    obtain ⟨u, hu, hsame, herr⟩ := exists_engined_withError c v i f he
    refine ⟨u, (engineTurn_eq_next_iff (s := s.withError c v i f) hb).mpr ⟨⟨hf.byte, hf.bulk⟩, hu⟩, hsame, fun hs ht => ?_⟩
    refine herr.resolve_left fun hkeep => ?_
    rw [hs, ht] at hkeep
    cases hkeep
  · exact (keepsError_of_engined ((engineTurn_eq_next_iff hb).mp h).2).1 he

end Sys2Proof.Machine
end

section
/-! PROOF. Running a COMPUTE (42_compute_dispatch.md R172, R177, R180-R186): the moves that stand by while it runs, the bytes left of
its buffer, one engine step of each path over readable bytes, and what the completed command has written. -/

namespace Sys2Proof.Machine

/-! ## The reference checksum -/

theorem foldl_byteStep_lt {acc : DWord} (h : acc.toNat < 2 ^ 32) (t : Table) (bs : List Byte) :
    (bs.foldl (byteStep t) acc).toNat < 2 ^ 32 := by
  induction bs generalizing acc with
  | nil => exact h
  | cons b bs ih => exact ih (byteStep_lt t (by omega) b)

/-- Settles O36: the accumulator of A stays below 2^32, so entering the domain again takes up where A left it. -/
theorem chainingLaw : Obligations.ChainingLaw := by
  unfold Obligations.ChainingLaw
  intro seed as bs
  rw [crc32cSpec_eq_finish seed as, crc32cSpec_eq_finish, enterDomain_finish (foldl_byteStep_lt (enterDomain_lt seed) genTable as),
    crc32cSpec_eq_finish, List.foldl_append]

/-- Entering the domain is the complement, zero-extended (41_accumulator_ops.md R132). -/
theorem enterDomain_eq_setWidth_not (x : Word) : enterDomain x = (~~~x).setWidth 64 := by
  have hmask : 0x00000000FFFFFFFF#64 = (BitVec.allOnes 32).setWidth 64 := by decide
  rw [enterDomain, hmask, ← BitVec.setWidth_xor, BitVec.xor_allOnes]

/-- An accumulator with its high half 0 is the complement of its checksum (42_compute_dispatch.md R180). -/
theorem acc_eq_setWidth_not_finish {acc : DWord} (h : highHalf acc = 0#32) : acc = (~~~finish acc).setWidth 64 := by
  rw [← enterDomain_eq_setWidth_not, enterDomain_finish ((highHalf_eq_zero_iff acc).mp h)]

/-! ## Moves that stand by -/

section standBy
variable {s t : State}

/-- From s to t only the operand registers, the error state, memory, the queue and the port have changed: nothing the engine works
from but memory (42_compute_dispatch.md R175, R178). -/
def SameRun (s t : State) : Prop :=
  t = { s with
    seed := t.seed, len := t.len, addr := t.addr, data := t.data, errcode := t.errcode, errovf := t.errovf
    errinfo := t.errinfo, mem := t.mem, inputs := t.inputs, response := t.response, faulted := t.faulted
    hostFaulted := t.hostFaulted }

/-- From s to t nothing the running command uses has changed: its bytes of memory are as they were too (20_memory.md R77). -/
structure StandsBy (s t : State) : Prop where
  frame : SameRun s t
  reads : ∀ a, inLatchedBuffer s a = true → t.mem.read a = s.mem.read a

theorem standsBy_of_mem_eq (hf : SameRun s t) (hm : t.mem = s.mem) : StandsBy s t :=
  ⟨hf, fun a _ => by rw [hm]⟩

theorem standsBy_raiseForWord (e : ErrCode) (w : Word) (s : State) : StandsBy s.popped (raiseForWord e w s.atCommand) := by
  refine standsBy_of_mem_eq ?_ (recordError_mem s.atCommand _ _)
  rw [SameRun, raiseForWord, recordError_frame]
  rfl

/-- While BUSY = 1 a host access reaches the operand registers, the error state and the port alone. -/
theorem standsBy_of_hostAccess {a : HostAccess} (hb : s.busy = true) (h : hostAccess a s.popped = .next t) :
    StandsBy s.popped t := by
  obtain rfl | rfl | ⟨v, rfl⟩ | rfl | ⟨v, rfl⟩ | ⟨v, rfl⟩ | ⟨v, rfl⟩ | ⟨v, rfl⟩ | ⟨w, -, hw⟩ := hostAccess_next h
  case inr.inr.inr.inr.inr.inr.inr.inr =>
    rw [submitCommand_of_busy (s := respond .done s.popped) hb] at hw
    cases hw
    exact standsBy_raiseForWord .cmdWhileBusy w s
  all_goals exact standsBy_of_mem_eq rfl rfl

theorem standsBy_waitPoll (hb : s.busy = true) : StandsBy s (waitPoll s) := by
  refine standsBy_of_mem_eq ?_ (waitPoll_mem s)
  rw [SameRun, waitPoll_of_busy hb]
  rfl

/-- A write outside the latched buffer breaks no duty and changes no byte of it (20_memory.md R77). -/
theorem standsBy_writeBuffer {a : DWord} (ha : inLatchedBuffer s a = false) (b : Byte) : StandsBy s (writeBuffer a b s) where
  frame := by simp [SameRun, writeBuffer, ha]
  reads a' ha' := by
    refine s.mem.read_write_other ?_ b
    rintro rfl
    rw [ha] at ha'
    cases ha'

/-- Every move listed keeps the host's duties on the buffer as latched. -/
def State.keepsDuties (s : State) : Prop := ∀ i ∈ s.inputs, i.keepsDuty s.bufAddr s.bufLen

theorem inputs_of_waitPoll (s : State) : ∀ i ∈ (waitPoll s).inputs, i = .engine ∨ i = .wait ∨ i ∈ s.inputs := by
  cases hb : s.busy with
  | false =>
    rw [waitPoll_of_idle hb]
    exact fun i hi => .inr (.inr hi)
  | true =>
    rw [waitPoll_of_busy hb]
    intro i hi
    simpa using hi

/-- A step takes its move from the queue; only WAIT lists moves of its own, and those keep every duty. -/
theorem inputs_of_step (h : step s = .next t) : ∀ i ∈ t.inputs, i = .engine ∨ i = .wait ∨ i ∈ s.inputs := by
  have htail {i : Input} (hi : i ∈ s.popped.inputs) : i ∈ s.inputs := List.mem_of_mem_tail hi
  obtain ⟨-, h⟩ | ⟨a, -, h⟩ | ⟨-, rfl⟩ | ⟨a, b, -, rfl⟩ | ⟨p, a, -, rfl⟩ := step_next h
  · rw [inputs_of_engineTurn h]
    exact fun i hi => .inr (.inr (htail hi))
  · rw [inputs_of_hostAccess h]
    exact fun i hi => .inr (.inr (htail hi))
  · exact fun i hi => (inputs_of_waitPoll _ i hi).imp_right (Or.imp_right htail)
  · exact fun i hi => .inr (.inr (htail hi))
  · rw [resetMove_inputs]
    exact fun i hi => .inr (.inr (htail hi))

theorem keepsDuty_of_head {i : Input} (hs : s.keepsDuties) (h : s.inputs.head? = some i) : i.keepsDuty s.bufAddr s.bufLen :=
  hs i (List.mem_of_mem_head? h)

/-- While a command runs, a duty-keeping move stands by or is the engine's step. -/
theorem standsBy_or_engineStep (hb : s.busy = true) (hd : s.keepsDuties) (h : step s = .next t) :
    StandsBy s.popped t ∨ engineStep s.popped = .next t := by
  obtain ⟨-, h⟩ | ⟨a, -, h⟩ | ⟨-, rfl⟩ | ⟨a, b, ha, rfl⟩ | ⟨p, a, ha, rfl⟩ := step_next h
  · exact .inr ((engineTurn_of_busy (s := s.popped) hb).symm.trans h)
  · exact .inl (standsBy_of_hostAccess hb h)
  · exact .inl (standsBy_waitPoll hb)
  · refine .inl (standsBy_writeBuffer ?_ b)
    rw [← Bool.not_eq_true, inLatchedBuffer_iff]
    exact keepsDuty_of_head hd ha
  · exact (keepsDuty_of_head hd ha).elim

/-- The queue of the next state keeps the duties too, as long as the buffer is the one latched. -/
theorem keepsDuties_of_step (hd : s.keepsDuties) (h : step s = .next t) (ha : t.bufAddr = s.bufAddr) (hl : t.bufLen = s.bufLen) :
    t.keepsDuties := by
  intro i hi
  rw [ha, hl]
  obtain rfl | rfl | hi := inputs_of_step h i hi
  · trivial
  · trivial
  · exact hd i hi

end standBy

/-! ## The bytes left of the buffer -/

section remaining
variable {s t : State} {bs : List Byte}

theorem Memory.holds_append {m : Memory} {a : DWord} {xs ys : List Byte} :
    m.holds a (xs ++ ys) ↔ m.holds a xs ∧ m.holds (a + BitVec.ofNat 64 xs.length) ys := by
  induction xs generalizing a with
  | nil => simp [Memory.holds]
  | cons x xs ih =>
    rw [List.cons_append, Memory.holds_cons, Memory.holds_cons, ih, and_assoc, List.length_cons, Nat.add_comm xs.length 1,
      BitVec.ofNat_add, BitVec.add_assoc]

/-- bs are the bytes the running command has not consumed, held at CUR inside the buffer as latched (10_state.md R22,
R45). -/
structure Remaining (s : State) (bs : List Byte) : Prop where
  length : bs.length = s.rem.toNat
  holds : s.mem.holds s.cur bs
  latched : ∀ k < bs.length, inLatchedBuffer s (s.cur + BitVec.ofNat 64 k) = true

/-- At issue the bytes left are the whole buffer, which does not wrap (42_compute_dispatch.md R179). -/
theorem remaining_of_latched (hl : bs.length = s.rem.toNat) (hm : s.mem.holds s.cur bs) (ha : s.bufAddr = s.cur)
    (hb : s.bufLen = s.rem) (hr : s.cur.toNat + s.rem.toNat ≤ 2 ^ 64) : Remaining s bs := by
  refine ⟨hl, hm, fun k hk => ?_⟩
  have hadd : (s.cur + BitVec.ofNat 64 k).toNat = s.cur.toNat + k := by
    rw [BitVec.toNat_add, BitVec.toNat_ofNat]
    omega
  rw [inLatchedBuffer_iff, ha, hb, hadd]
  omega

theorem Remaining.standsBy (h : Remaining s bs) (hst : StandsBy s t) : Remaining t bs := by
  have hcur : t.cur = s.cur := (congrArg State.cur hst.frame :)
  have hrem : t.rem = s.rem := (congrArg State.rem hst.frame :)
  have hbuf (a : DWord) : inLatchedBuffer t a = inLatchedBuffer s a := by rw [hst.frame]; rfl
  refine ⟨hrem ▸ h.length, fun k hk => ?_, fun k hk => ?_⟩
  · rw [hcur, hst.reads _ (h.latched k hk), h.holds k hk]
  · rw [hbuf, hcur, h.latched k hk]

/-- Consuming n of the bytes left leaves the rest. -/
theorem Remaining.consumed {n : Nat} (h : Remaining s bs) (hn : n ≤ bs.length) (acc : DWord) (norm : DWord → Word → Phase) :
    Remaining (s.consumed n acc norm) (bs.drop n) := by
  have hlen : (bs.take n).length = n := by rw [List.length_take]; omega
  have hcur (k : Nat) : (s.consumed n acc norm).cur + BitVec.ofNat 64 k = s.cur + BitVec.ofNat 64 (n + k) := by
    rw [BitVec.ofNat_add, ← BitVec.add_assoc]
    rfl
  constructor
  · rw [List.length_drop, toNat_rem_consumed (h.length ▸ hn), h.length]
  · have hm := h.holds
    rw [← List.take_append_drop n bs, Memory.holds_append, hlen] at hm
    exact hm.2
  · intro k hk
    rw [List.length_drop] at hk
    rw [hcur]
    exact h.latched (n + k) (by omega)

theorem Remaining.popped (h : Remaining s bs) : Remaining s.popped bs :=
  ⟨h.length, h.holds, h.latched⟩

end remaining

/-! ## One step of the software path -/

section software
variable {s : State} {bs : List Byte}

/-- The bytes the step of a phase takes (42_compute_dispatch.md R165-R167). -/
def Phase.width : Phase → Nat
  | .head => 1
  | .bulk => 8
  | .tail => 1
  | .idle => 0
  | .finish => 0
  | .tblgen => 0
  | .hwrun => 0

/-- The Norm that follows the step of a reading phase of the software path (42_compute_dispatch.md R165-R167). -/
def Phase.norm : Phase → DWord → Word → Phase
  | .head => normHead
  | .bulk => normBulk
  | _ => normTail

/-- s after its HEAD, BULK or TAIL step, where bs are the bytes left. -/
def State.afterReading (s : State) (bs : List Byte) : State :=
  s.consumed s.phase.width ((bs.take s.phase.width).foldl (byteStep genTable) s.acc) s.phase.norm

/-- The software path is at a step that reads. -/
def Phase.consumes (p : Phase) : Prop := p = .head ∨ p = .bulk ∨ p = .tail

theorem consumes_of_software {p : Phase} (h : p.software = true) (hf : p ≠ .finish) : p.consumes := by
  cases p with
  | head | bulk | tail => simp [Phase.consumes]
  | finish => exact absurd rfl hf
  | idle | tblgen | hwrun => cases h

theorem width_le_length (hf : CountsFit s) (hp : s.phase.consumes) (hr : Remaining s bs) : s.phase.width ≤ bs.length := by
  rw [hr.length]
  obtain hp | hp | hp := hp
  · rw [hp]
    exact Nat.pos_of_ne_zero (hf.byte (.inl hp))
  · rw [hp]
    exact (hf.bulk hp).2
  · rw [hp]
    exact Nat.pos_of_ne_zero (hf.byte (.inr hp))

/-- The next of the bytes left is the one read at CUR. -/
theorem Remaining.exists_cons (hr : Remaining s bs) (h0 : s.rem.toNat ≠ 0) :
    ∃ b rest, bs = b :: rest ∧ s.mem.read s.cur = some b := by
  obtain ⟨b, rest, rfl⟩ := List.exists_cons_of_length_pos (Nat.pos_of_ne_zero (hr.length ▸ h0))
  exact ⟨b, rest, rfl, (Memory.holds_cons.mp hr.holds).1⟩

/-- Where memory holds eight bytes, the 8-byte read answers a word whose fold is eight byte steps over them (20_memory.md R63;
41_accumulator_ops.md R138). -/
theorem exists_read8_of_holds {m : Memory} {a : DWord} {xs : List Byte} (hx : m.holds a xs) (hl : xs.length = 8) (acc : DWord) :
    ∃ w, m.read8 a = some w ∧ fold8 genTable acc w = xs.foldl (byteStep genTable) acc := by
  have hrange : m.readRange a 8 = some xs := by rw [← hl, Memory.readRange_length_eq_some_iff]; exact hx
  have hread : m.read8 a = some (BitVec.ofNat 64 (littleEndian xs)) := Memory.read8_eq_some_iff.mpr ⟨xs, hrange, rfl⟩
  have hbytes : (List.range 8).map (byteOf · (BitVec.ofNat 64 (littleEndian xs))) = xs := by
    refine List.ext_getElem (by simp [hl]) fun k _ hk => ?_
    rw [List.getElem_map, List.getElem_range, byteOf_read8 hrange hread, List.getD_eq_getElem _ _ hk]
  refine ⟨_, hread, ?_⟩
  rw [fold8_eq_foldl_byteStep, ← List.foldl_map (f := (byteOf · _)), hbytes]

/-- Over readable bytes each reading phase has one step: it takes ACC through the bytes it reads (42_compute_dispatch.md
R165-R167). -/
theorem engineStep_of_remaining (hf : CountsFit s) (ht : s.table = genTable) (hp : s.phase.consumes) (hr : Remaining s bs) :
    engineStep s = .next (s.afterReading bs) := by
  have hw := width_le_length hf hp hr
  refine engineStep_of_engined hf ?_
  unfold State.afterReading
  obtain hp | hp | hp := hp <;> rw [hp] at hw ⊢
  · obtain ⟨b, rest, rfl, hb⟩ := hr.exists_cons (hf.byte (.inl hp))
    have h := Engined.head hp (Nat.pos_of_ne_zero (hf.byte (.inl hp))) b hb
    rwa [ht] at h
  · have hm := hr.holds
    rw [← List.take_append_drop 8 bs, Memory.holds_append] at hm
    obtain ⟨w, hread, hfold⟩ := exists_read8_of_holds hm.1 (List.length_take_of_le hw) s.acc
    have h := Engined.bulk hp (hf.bulk hp).1 (hf.bulk hp).2 w hread
    rwa [ht, hfold] at h
  · obtain ⟨b, rest, rfl, hb⟩ := hr.exists_cons (hf.byte (.inr hp))
    have h := Engined.tail hp (Nat.pos_of_ne_zero (hf.byte (.inr hp))) b hb
    rwa [ht] at h

theorem software_normTail (cur : DWord) (rem : Word) : (normTail cur rem).software = true := by
  unfold normTail
  split <;> rfl

theorem software_normBulk (cur : DWord) (rem : Word) : (normBulk cur rem).software = true := by
  unfold normBulk
  split
  · rfl
  · exact software_normTail cur rem

/-- Every Norm leads to a phase of the software path (42_compute_dispatch.md R164). -/
theorem software_norm (p : Phase) (cur : DWord) (rem : Word) : (p.norm cur rem).software = true := by
  cases p with
  | head => exact phaseFits_normHead.software
  | bulk => exact software_normBulk cur rem
  | idle | tail | finish | tblgen | hwrun => exact software_normTail cur rem

end software

/-! ## A running COMPUTE and the host's moves -/

section running
variable {s t u : State} {n : Nat} {v : DWord}

/-- A COMPUTE runs, its buffer not written so far and no listed move to write it. -/
structure Running (s : State) : Prop where
  busy : s.busy = true
  kept : s.dutyBroken = false
  duties : s.keepsDuties

theorem Running.standsBy (hs : Running s) (h : step s = .next t) (hst : StandsBy s.popped t) : Running t :=
  ⟨(congrArg State.busy hst.frame :).trans hs.busy, (congrArg State.dutyBroken hst.frame :).trans hs.kept,
    keepsDuties_of_step hs.duties h (congrArg State.bufAddr hst.frame :) (congrArg State.bufLen hst.frame :)⟩

theorem endsIn_of_idle (h : endsIn n s u) (hb : s.busy = false) : u = s := by
  obtain ⟨hrun, -, hbusy⟩ := h
  cases n with
  | zero => exact (Host.Outcome.next.inj hrun).symm
  | succ n =>
    obtain ⟨w, hw, hwb⟩ := hbusy 0 (Nat.succ_pos n)
    obtain rfl := Host.Outcome.next.inj hw
    rw [hb] at hwb
    cases hwb

theorem endsIn_tail (h : endsIn (n + 1) s u) : ∃ t, step s = .next t ∧ endsIn n t u := by
  obtain ⟨hrun, hu, hbusy⟩ := h
  obtain ⟨t, ht, hrun⟩ := exists_step_of_runSteps_succ hrun
  refine ⟨t, ht, hrun, hu, fun m hm => ?_⟩
  rw [← runSteps_succ ht m]
  exact hbusy (m + 1) (Nat.succ_lt_succ hm)

theorem endsIn_one (hb : s.busy = true) (h : step s = .next u) (hu : u.busy = false) : endsIn 1 s u :=
  ⟨runSteps_one h, hu, fun m hm => ⟨s, by rw [Nat.lt_one_iff.mp hm]; rfl, hb⟩⟩

/-- What every step of a running command keeps until it ends with Q holds, with Q, of the state it ends in. -/
theorem endsIn_induction {P Q : State → Prop} (hbusy : ∀ s, P s → s.busy = true)
    (hstep : ∀ s t, P s → step s = .next t → P t ∨ (t.busy = false ∧ Q t)) (hs : P s) (h : endsIn n s u) : Q u := by
  induction n generalizing s with
  | zero =>
    obtain ⟨hrun, hu, -⟩ := h
    obtain rfl := Host.Outcome.next.inj hrun
    rw [hbusy s hs] at hu
    cases hu
  | succ n ih =>
    obtain ⟨t, ht, h⟩ := endsIn_tail h
    obtain hp | ⟨hb, hq⟩ := hstep s t hs ht
    · exact ih hp h
    · rwa [endsIn_of_idle h hb]

/-! ### The software path -/

/-- COMPUTE.SW runs and will deliver the accumulator v: the byte steps over the bytes left take ACC there. -/
structure SoftwareRun (v : DWord) (s : State) : Prop where
  running : Running s
  inv : Inv s
  software : s.phase.software = true
  left : ∃ bs, Remaining s bs ∧ bs.foldl (byteStep genTable) s.acc = v

/-- COMPUTE.SW has completed with the accumulator v (42_compute_dispatch.md R168, R180). -/
def CompletedSoftware (v : DWord) (s : State) : Prop :=
  s.result = finish v ∧ s.accValid = true ∧ s.acc = v ∧ highHalf v = 0#32

theorem SoftwareRun.table (hs : SoftwareRun v s) : s.table = genTable :=
  hs.inv.table (hs.inv.sequencer.software hs.software).1

/-- In FINISH no byte is left, so ACC has reached v. -/
theorem SoftwareRun.acc_of_finish (hs : SoftwareRun v s) (hp : s.phase = .finish) : s.acc = v := by
  obtain ⟨bs, hr, hv⟩ := hs.left
  have hnil : bs = [] := List.eq_nil_of_length_eq_zero (hr.length.trans (hs.inv.sequencer.finish hp))
  subst hnil
  exact hv

/-- The step that completes COMPUTE.SW (42_compute_dispatch.md R168). -/
theorem SoftwareRun.engineStep_eq_of_finish (hs : SoftwareRun v s) (hp : s.phase = .finish) :
    engineStep s.popped = .next (endLong { s.popped with result := finish v }) := by
  rw [engineStep_of_finish (s := s.popped) hp, deliverResult_of_kept (s := s.popped) hs.running.kept,
    ← hs.acc_of_finish hp]
  rfl

theorem SoftwareRun.completed (hs : SoftwareRun v s) (hp : s.phase = .finish) :
    CompletedSoftware v (endLong { s.popped with result := finish v }) := by
  have hav := (hs.inv.sequencer.software hs.software).2
  have hv := hs.acc_of_finish hp
  exact ⟨rfl, hav, hv, hv ▸ hs.inv.sequencer.accHigh hav⟩

theorem SoftwareRun.standsBy (hs : SoftwareRun v s) (h : step s = .next t) (hst : StandsBy s.popped t) : SoftwareRun v t := by
  obtain ⟨bs, hr, hv⟩ := hs.left
  have hphase : t.phase = s.phase := (congrArg State.phase hst.frame :)
  have hacc : t.acc = s.acc := (congrArg State.acc hst.frame :)
  exact ⟨hs.running.standsBy h hst, blockInvariantKept s t hs.inv h, by rw [hphase]; exact hs.software,
    bs, hr.popped.standsBy hst, by rw [hacc]; exact hv⟩

/-- Before FINISH the engine reads some of the bytes left and keeps running towards v. -/
theorem SoftwareRun.exists_afterReading (hs : SoftwareRun v s) (hp : s.phase ≠ .finish) :
    ∃ bs, s.phase.width ≤ s.rem.toNat ∧ engineStep s.popped = .next (s.popped.afterReading bs) ∧
      (step s = .next (s.popped.afterReading bs) → SoftwareRun v (s.popped.afterReading bs)) := by
  obtain ⟨bs, hr, hv⟩ := hs.left
  have hf := countsFit_of_inv hs.inv.popped
  have hc := consumes_of_software hs.software hp
  have hw := width_le_length hf hc hr.popped
  refine ⟨bs, hr.length ▸ hw, engineStep_of_remaining hf hs.table hc hr.popped, fun h => ?_⟩
  refine ⟨⟨hs.running.busy, hs.running.kept, keepsDuties_of_step hs.running.duties h rfl rfl⟩, blockInvariantKept s _ hs.inv h,
    software_norm _ _ _, _, hr.popped.consumed hw _ _, ?_⟩
  rw [← hv]
  conv_rhs => rw [← List.take_append_drop s.phase.width bs, List.foldl_append]
  rfl

/-- Every step of a running COMPUTE.SW under the host's duties keeps it running towards v, or completes it with v. -/
theorem SoftwareRun.runs_or_completed (hs : SoftwareRun v s) (h : step s = .next t) :
    SoftwareRun v t ∨ (t.busy = false ∧ CompletedSoftware v t) := by
  obtain hst | he := standsBy_or_engineStep hs.running.busy hs.running.duties h
  · exact .inl (hs.standsBy h hst)
  by_cases hp : s.phase = .finish
  · rw [hs.engineStep_eq_of_finish hp] at he
    cases he
    exact .inr ⟨rfl, hs.completed hp⟩
  · obtain ⟨bs, -, hread, hnext⟩ := hs.exists_afterReading hp
    rw [hread] at he
    cases he
    exact .inl (hnext h)

/-- However the moves fall, a COMPUTE.SW that ends has completed with v. -/
theorem SoftwareRun.completed_of_endsIn (hs : SoftwareRun v s) (h : endsIn n s u) : CompletedSoftware v u :=
  endsIn_induction (P := SoftwareRun v) (fun _ hp => hp.running.busy) (fun _ _ => SoftwareRun.runs_or_completed) hs h

end running

end Sys2Proof.Machine
end

section
/-! PROOF. COMPUTE.SW and COMPUTE.HW from issue to completion (42_compute_dispatch.md R172, R177, R180, R181, R185, R186): the exact
phases of a COMPUTE.SW left alone, and both paths against the reference checksum under every interleaving. -/

namespace Sys2Proof.Machine

/-! ## The phases by their counts -/

section counts
variable {a n k : Nat} {cur : DWord} {rem : Word}

/-- The bytes a COMPUTE.SW of n bytes at a has consumed after k engine steps (42_compute_dispatch.md R177). -/
def consumedAt (a n k : Nat) : Nat :=
  min k (headSteps a n) + 8 * min (k - headSteps a n) (bulkSteps a n) + min (k - headSteps a n - bulkSteps a n) (tailSteps a n)

/-- HEAD runs out of bytes or stops at the first multiple of 8 (42_compute_dispatch.md R177). -/
theorem headSteps_spec (a n : Nat) :
    headSteps a n ≤ n ∧ (headSteps a n = n ∨ (a + headSteps a n) % 8 = 0) ∧ ∀ j < headSteps a n, (a + j) % 8 ≠ 0 := by
  unfold headSteps
  refine ⟨Nat.min_le_left _ _, by omega, fun j hj => by omega⟩

theorem tailSteps_lt (a n : Nat) : tailSteps a n < 8 :=
  Nat.mod_lt _ (by decide)

/-- The steps between them consume every byte. -/
theorem steps_total (a n : Nat) : headSteps a n + 8 * bulkSteps a n + tailSteps a n = n := by
  have hhead := (headSteps_spec a n).1
  have hdiv := Nat.div_add_mod (n - headSteps a n) 8
  unfold bulkSteps tailSteps
  omega

theorem phaseAt_head (h : k < headSteps a n) : phaseAt a n k = .head :=
  if_pos h

theorem phaseAt_bulk (hlo : headSteps a n ≤ k) (hhi : k < headSteps a n + bulkSteps a n) : phaseAt a n k = .bulk := by
  rw [phaseAt, if_neg (by omega), if_pos hhi]

theorem phaseAt_tail (hlo : headSteps a n + bulkSteps a n ≤ k) (hhi : k < headSteps a n + bulkSteps a n + tailSteps a n) :
    phaseAt a n k = .tail := by
  rw [phaseAt, if_neg (by omega), if_neg (by omega), if_pos hhi]

theorem phaseAt_finish (h : k + 1 = softwareSteps a n) : phaseAt a n k = .finish := by
  unfold softwareSteps at h
  rw [phaseAt, if_neg (by omega), if_neg (by omega), if_neg (by omega), if_pos (by rw [softwareSteps]; omega)]

theorem phaseAt_idle : phaseAt a n (softwareSteps a n) = .idle := by
  rw [phaseAt, if_neg (by rw [softwareSteps]; omega), if_neg (by rw [softwareSteps]; omega),
    if_neg (by rw [softwareSteps]; omega), if_neg (Nat.lt_irrefl _)]

theorem normTail_eq_phaseAt (hlo : headSteps a n + bulkSteps a n ≤ k) (hhi : k < softwareSteps a n)
    (hr : rem.toNat + consumedAt a n k = n) : normTail cur rem = phaseAt a n k := by
  have htotal := steps_total a n
  unfold consumedAt at hr
  by_cases h0 : rem.toNat = 0
  · rw [normTail_of_zero h0, phaseAt_finish (by unfold softwareSteps at hhi ⊢; omega)]
  · rw [normTail_of_pos (by omega), phaseAt_tail hlo (by omega)]

theorem normBulk_eq_phaseAt (hlo : headSteps a n ≤ k) (hhi : k ≤ headSteps a n + bulkSteps a n)
    (hr : rem.toNat + consumedAt a n k = n) : normBulk cur rem = phaseAt a n k := by
  have htotal := steps_total a n
  have htail := tailSteps_lt a n
  have hsum := hr
  unfold consumedAt at hsum
  by_cases h8 : 8 ≤ rem.toNat
  · rw [normBulk_of_le h8, phaseAt_bulk hlo (by omega)]
  · rw [normBulk_of_lt (by omega), normTail_eq_phaseAt (by omega) (by unfold softwareSteps; omega) hr]

theorem normHead_eq_phaseAt (hhi : k ≤ headSteps a n) (hc : cur.toNat % 8 = (a + consumedAt a n k) % 8)
    (hr : rem.toNat + consumedAt a n k = n) : normHead cur rem = phaseAt a n k := by
  have htotal := steps_total a n
  obtain ⟨-, hend, hbefore⟩ := headSteps_spec a n
  have hk : consumedAt a n k = k := by unfold consumedAt; omega
  by_cases h0 : rem.toNat = 0
  · rw [normHead_of_zero h0, phaseAt_finish (by unfold softwareSteps; omega)]
  by_cases h8 : cur.toNat % 8 = 0
  · have hlast : ¬k < headSteps a n := fun hlt => hbefore k hlt (by omega)
    rw [normHead_of_aligned h0 h8, normBulk_eq_phaseAt (by omega) (by omega) hr]
  · have hnot : k ≠ headSteps a n := by
      rintro rfl
      omega
    rw [normHead_of_unaligned h0 h8, phaseAt_head (by omega)]

/-- The step after each count but the last reads: HEAD, then BULK, then TAIL (42_compute_dispatch.md R177). -/
theorem phaseAt_cases (hk : k + 1 < softwareSteps a n) :
    (k < headSteps a n ∧ phaseAt a n k = .head) ∨
    (headSteps a n ≤ k ∧ k < headSteps a n + bulkSteps a n ∧ phaseAt a n k = .bulk) ∨
    (headSteps a n + bulkSteps a n ≤ k ∧ k < headSteps a n + bulkSteps a n + tailSteps a n ∧ phaseAt a n k = .tail) := by
  unfold softwareSteps at hk
  by_cases hhead : k < headSteps a n
  · exact .inl ⟨hhead, phaseAt_head hhead⟩
  by_cases hbulk : k < headSteps a n + bulkSteps a n
  · exact .inr (.inl ⟨by omega, hbulk, phaseAt_bulk (by omega) hbulk⟩)
  · exact .inr (.inr ⟨by omega, by omega, phaseAt_tail (by omega) (by omega)⟩)

/-- The Norm of each step but the last leads to the next phase of the count (42_compute_dispatch.md R164, R177). -/
theorem norm_phaseAt (hk : k + 1 < softwareSteps a n) (hc : cur.toNat % 8 = (a + consumedAt a n (k + 1)) % 8)
    (hr : rem.toNat + consumedAt a n (k + 1) = n) : (phaseAt a n k).norm cur rem = phaseAt a n (k + 1) := by
  obtain ⟨hhi, hp⟩ | ⟨hlo, hhi, hp⟩ | ⟨hlo, -, hp⟩ := phaseAt_cases hk <;> rw [hp]
  · exact normHead_eq_phaseAt hhi hc hr
  · exact normBulk_eq_phaseAt (Nat.le_succ_of_le hlo) hhi hr
  · exact normTail_eq_phaseAt (cur := cur) (Nat.le_succ_of_le hlo) hk hr

theorem consumedAt_succ (hk : k + 1 < softwareSteps a n) :
    consumedAt a n (k + 1) = consumedAt a n k + (phaseAt a n k).width := by
  unfold consumedAt
  obtain ⟨hhi, hp⟩ | ⟨hlo, hhi, hp⟩ | ⟨hlo, hhi, hp⟩ := phaseAt_cases hk <;> rw [hp, Phase.width] <;> omega

/-- Only the last step finds FINISH. -/
theorem phaseAt_ne_finish (hk : k + 1 < softwareSteps a n) : phaseAt a n k ≠ .finish := by
  obtain ⟨-, hp⟩ | ⟨-, -, hp⟩ | ⟨-, -, hp⟩ := phaseAt_cases hk <;> rw [hp] <;> decide

end counts

/-! ## COMPUTE.SW left alone -/

section alone
variable {s t u : State} {v : DWord} {a n k : Nat}

/-- The error state: ERRCODE, ERROVF and ERRINFO (60_exceptions.md R224). -/
def State.errorPart (s : State) : ErrCode × Bool × DWord := (s.errcode, s.errovf, s.errinfo)

/-- u is where a COMPUTE.SW of n bytes at a is after k steps of an engine left alone, with the error state as at issue. -/
structure AloneAt (v : DWord) (e : ErrCode × Bool × DWord) (a n k : Nat) (u : State) : Prop where
  run : SoftwareRun v u
  inputs : u.inputs = []
  phase : u.phase = phaseAt a n k
  cur : u.cur.toNat % 8 = (a + consumedAt a n k) % 8
  rem : u.rem.toNat + consumedAt a n k = n
  error : u.errorPart = e

theorem AloneAt.nextIsEngine {e : ErrCode × Bool × DWord} (h : AloneAt v e a n k u) : u.nextIsEngine = true := by
  simp [State.nextIsEngine, h.inputs]

theorem toNat_add_mod_eight {x : DWord} {m w : Nat} (h : x.toNat % 8 = m % 8) :
    (x + BitVec.ofNat 64 w).toNat % 8 = (m + w) % 8 := by
  rw [BitVec.toNat_add, BitVec.toNat_ofNat]
  omega

/-- Before FINISH one step reads the bytes of its phase and goes to the next phase of the count. -/
theorem AloneAt.succ {e : ErrCode × Bool × DWord} (h : AloneAt v e a n k u) (hk : k + 1 < softwareSteps a n) :
    ∃ t, step u = .next t ∧ AloneAt v e a n (k + 1) t := by
  obtain ⟨bs, hw, hread, hnext⟩ := h.run.exists_afterReading (by rw [h.phase]; exact phaseAt_ne_finish hk)
  have hstep : step u = .next (u.popped.afterReading bs) := by
    rw [step_of_nextIsEngine_of_busy h.nextIsEngine h.run.running.busy, hread]
  have hcons : consumedAt a n (k + 1) = consumedAt a n k + u.phase.width := by rw [consumedAt_succ hk, h.phase]
  have hcur : (u.popped.afterReading bs).cur.toNat % 8 = (a + consumedAt a n (k + 1)) % 8 := by
    rw [hcons, ← Nat.add_assoc]
    exact toNat_add_mod_eight h.cur
  have hrem : (u.popped.afterReading bs).rem.toNat + consumedAt a n (k + 1) = n := by
    have hsub : (u.popped.afterReading bs).rem.toNat + u.phase.width = u.rem.toNat := toNat_rem_sub_add hw
    have hrem := h.rem
    omega
  refine ⟨_, hstep, hnext hstep, congrArg List.tail h.inputs, ?_, hcur, hrem, h.error⟩
  rw [← norm_phaseAt hk hcur hrem, ← h.phase]
  rfl

/-- From issue the engine left alone is at every count before the last. -/
theorem exists_aloneAt {e : ErrCode × Bool × DWord} (h : AloneAt v e a n 0 s) (hk : k < softwareSteps a n) :
    ∃ u, runSteps k s = .next u ∧ AloneAt v e a n k u := by
  induction k with
  | zero => exact ⟨s, rfl, h⟩
  | succ k ih =>
    obtain ⟨u, hu, ha⟩ := ih (by omega)
    obtain ⟨t, ht, ha'⟩ := ha.succ hk
    exact ⟨t, (runSteps_add hu 1).trans (runSteps_one ht), ha'⟩

/-- The last step ends the command and leaves the error state (42_compute_dispatch.md R168). -/
theorem exists_alone_end {e : ErrCode × Bool × DWord} (h : AloneAt v e a n 0 s) :
    ∃ u, runSteps (softwareSteps a n) s = .next u ∧ u.busy = false ∧ u.phase = .idle ∧ u.errorPart = e := by
  obtain ⟨k, hk⟩ : ∃ k, k + 1 = softwareSteps a n := ⟨_, rfl⟩
  obtain ⟨u, hu, ha⟩ := exists_aloneAt h (k := k) (by omega)
  have hp : u.phase = .finish := by rw [ha.phase, phaseAt_finish hk]
  have hstep := (step_of_nextIsEngine_of_busy ha.nextIsEngine ha.run.running.busy).trans (ha.run.engineStep_eq_of_finish hp)
  rw [← hk]
  exact ⟨_, (runSteps_add hu 1).trans (runSteps_one hstep), rfl, rfl, ha.error⟩

/-- Left alone, the command ends after exactly the counted steps (42_compute_dispatch.md R177). -/
theorem exists_endsIn_alone {e : ErrCode × Bool × DWord} (h : AloneAt v e a n 0 s) :
    ∃ u, endsIn (softwareSteps a n) s u ∧ u.phase = .idle ∧ u.errorPart = e := by
  obtain ⟨u, hu, hb, hp, he⟩ := exists_alone_end h
  refine ⟨u, ⟨hu, hb, fun m hm => ?_⟩, hp, he⟩
  obtain ⟨w, hw, ha⟩ := exists_aloneAt h hm
  exact ⟨w, hw, ha.run.running.busy⟩

end alone

/-! ## COMPUTE.SW at issue -/

section issued
variable {s t : State} {bs : List Byte} {moves : List Input}

theorem inv_of_issued {i : Instr} (hs : Inv s) (hb : s.busy = false) (h : Issued s i t) : Inv t := by
  obtain ⟨hseq, htbl, herr, hrd, hmem⟩ := (inv_iff_parts s).mp hs
  obtain ⟨ht, htv⟩ := table_of_issued h
  exact (inv_iff_parts t).mpr ⟨sequencerInv_of_issued hseq hb h, by rw [ht, htv]; exact htbl, errorInv_of_issued herr h,
    readingInv_of_issued hrd h, by rw [mem_of_issued h]; exact hmem⟩

/-- s with other moves to come. -/
def State.withInputs (s : State) (moves : List Input) : State := { s with inputs := moves }

theorem Inv.withInputs (hs : Inv s) (moves : List Input) : Inv (s.withInputs moves) := by
  obtain ⟨hseq, htbl, herr, hrd, hmem⟩ := (inv_iff_parts s).mp hs
  exact (inv_iff_parts _).mpr ⟨hseq.congr rfl, htbl, ⟨herr.noError, herr.ghost⟩, hrd.congr rfl, hmem⟩

/-- What the statements on a COMPUTE of a buffer that is not empty have in common, but for the path's own check. -/
structure ComputeReady (s : State) (bs : List Byte) : Prop where
  inv : Inv s
  idle : s.busy = false
  range : s.addr.toNat + s.len.toNat ≤ 2 ^ 64
  nonempty : s.len ≠ 0#32
  length : bs.length = s.len.toNat
  holds : s.mem.holds s.addr bs

/-- The accumulator a COMPUTE.SW of the bytes bs ends with (42_compute_dispatch.md R160). -/
def finalAcc (seed : Word) (bs : List Byte) : DWord := bs.foldl (byteStep genTable) (enterDomain seed)

theorem softwareRun_issued (hs : ComputeReady s bs) (ht : s.tblValid = true)
    (hm : ∀ i ∈ moves, i.keepsDuty s.addr s.len) :
    SoftwareRun (finalAcc s.seed bs) (s.issuedSoftware.withInputs moves) where
  running := ⟨rfl, rfl, hm⟩
  inv := (inv_of_issued hs.inv hs.idle (.software hs.range hs.nonempty ht)).withInputs moves
  software := phaseFits_normHead.software
  left := ⟨bs, remaining_of_latched hs.length hs.holds rfl rfl hs.range, rfl⟩

theorem aloneAt_issued (hs : ComputeReady s bs) (ht : s.tblValid = true) :
    AloneAt (finalAcc s.seed bs) s.errorPart s.addr.toNat s.len.toNat 0 (s.issuedSoftware.withInputs []) where
  run := softwareRun_issued hs ht nofun
  inputs := rfl
  phase := normHead_eq_phaseAt (Nat.zero_le _) (by simp [consumedAt]) (by simp [consumedAt])
  cur := by simp [consumedAt]; rfl
  rem := by simp [consumedAt]; rfl
  error := rfl

end issued

/-- Settles O31: left alone the command runs through its counted phases; under the host's duties every move keeps it running
towards the accumulator of the buffer's bytes, which FINISH delivers. -/
theorem softwareComputeMatchesReference : Obligations.SoftwareComputeMatchesReference := by
  unfold Obligations.SoftwareComputeMatchesReference
  intro s bs hs hb ht hr hl hlen hm
  have hc : ComputeReady s bs := ⟨hs, hb, hr, hl, hlen, hm⟩
  refine ⟨_, exec_computeSw_of_accepted hr hl ht, ?_, fun moves n u hd hend => ?_⟩
  · obtain ⟨u, hend, hp, he⟩ := exists_endsIn_alone (aloneAt_issued hc ht)
    simp only [State.errorPart, Prod.mk.injEq] at he
    exact ⟨u, hend, hp, he⟩
  · obtain ⟨hres, hav, hacc, hhigh⟩ := (softwareRun_issued hc ht hd).completed_of_endsIn hend
    refine ⟨by rw [hres, crc32cSpec_eq_finish, finalAcc], hav, ?_⟩
    rw [hacc, hres]
    exact acc_eq_setWidth_not_finish hhigh

/-! ## COMPUTE.HW -/

section hardware
variable {s t : State} {bs : List Byte} {r : Word} {moves : List Input}

/-- ACC, its flag, the table and its flag are as they were in s (42_compute_dispatch.md R172). -/
def KeepsSoftwareState (s t : State) : Prop :=
  t.acc = s.acc ∧ t.accValid = s.accValid ∧ t.table = s.table ∧ t.tblValid = s.tblValid

/-- COMPUTE.HW, issued in o, runs and will deliver the result r, the checksum of the buffer's bytes. -/
structure HardwareRun (r : Word) (o s : State) : Prop where
  running : Running s
  hwrun : s.phase = .hwrun
  left : ∃ bs, Remaining s bs ∧ crc32cSpec s.lseed bs = r
  keeps : KeepsSoftwareState o s

variable {o : State}

/-- The step that completes COMPUTE.HW (42_compute_dispatch.md R173). -/
theorem HardwareRun.engineStep_eq (hs : HardwareRun r o s) :
    engineStep s.popped = .next (endLong { s.popped with result := r }) := by
  obtain ⟨bs, hr, rfl⟩ := hs.left
  rw [engineStep_of_hwrun (s := s.popped) hs.hwrun hr.length hr.holds, deliverResult_of_kept (s := s.popped) hs.running.kept]
  rfl

theorem HardwareRun.standsBy (hs : HardwareRun r o s) (h : step s = .next t) (hst : StandsBy s.popped t) : HardwareRun r o t := by
  obtain ⟨bs, hr, hres⟩ := hs.left
  have hlseed : t.lseed = s.lseed := (congrArg State.lseed hst.frame :)
  refine ⟨hs.running.standsBy h hst, (congrArg State.phase hst.frame :).trans hs.hwrun,
    ⟨bs, hr.popped.standsBy hst, by rw [hlseed, hres]⟩, ?_⟩
  rw [hst.frame]
  exact hs.keeps

/-- COMPUTE.HW, issued in o, has completed with the result r (42_compute_dispatch.md R173, R180). -/
def CompletedHardware (r : Word) (o s : State) : Prop := s.result = r ∧ KeepsSoftwareState o s

/-- Every step of a running COMPUTE.HW under the host's duties keeps it running, or completes it with r. -/
theorem HardwareRun.runs_or_completed (hs : HardwareRun r o s) (h : step s = .next t) :
    HardwareRun r o t ∨ (t.busy = false ∧ CompletedHardware r o t) := by
  obtain hst | he := standsBy_or_engineStep hs.running.busy hs.running.duties h
  · exact .inl (hs.standsBy h hst)
  · rw [hs.engineStep_eq] at he
    cases he
    exact .inr ⟨rfl, rfl, hs.keeps⟩

/-- However the moves fall, a COMPUTE.HW that ends has completed with r. -/
theorem HardwareRun.completed_of_endsIn {n : Nat} {u : State} (hs : HardwareRun r o s) (h : endsIn n s u) : CompletedHardware r o u :=
  endsIn_induction (P := HardwareRun r o) (fun _ hp => hp.running.busy) (fun _ _ => HardwareRun.runs_or_completed) hs h

/-- Left alone, COMPUTE.HW ends after one step and leaves the error state (42_compute_dispatch.md R177). -/
theorem HardwareRun.exists_endsIn_one (hs : HardwareRun r o s) (hi : s.inputs = []) :
    ∃ u, endsIn 1 s u ∧ u.phase = .idle ∧ u.errorPart = s.errorPart := by
  have hn : s.nextIsEngine = true := by simp [State.nextIsEngine, hi]
  have hstep := (step_of_nextIsEngine_of_busy hn hs.running.busy).trans hs.engineStep_eq
  exact ⟨_, endsIn_one hs.running.busy hstep rfl, rfl, rfl⟩

theorem hardwareRun_issued (hs : ComputeReady s bs) (hm : ∀ i ∈ moves, i.keepsDuty s.addr s.len) :
    HardwareRun (crc32cSpec s.seed bs) s (s.issuedHardware.withInputs moves) where
  running := ⟨rfl, rfl, hm⟩
  hwrun := rfl
  left := ⟨bs, remaining_of_latched hs.length hs.holds rfl rfl hs.range, rfl⟩
  keeps := ⟨rfl, rfl, rfl, rfl⟩

end hardware

/-- Settles O32: left alone the one step delivers; under the host's duties every move stands by until it does. -/
theorem hardwareComputeMatchesReference : Obligations.HardwareComputeMatchesReference := by
  unfold Obligations.HardwareComputeMatchesReference
  intro s bs hs hb ha hr hl hlen hm
  have hc : ComputeReady s bs := ⟨hs, hb, hr, hl, hlen, hm⟩
  refine ⟨_, exec_computeHw_of_accepted ha hr hl, ?_, fun moves n u hd hend => ?_⟩
  · obtain ⟨u, hend, hp, he⟩ := (hardwareRun_issued hc (moves := []) nofun).exists_endsIn_one rfl
    simp only [State.errorPart, Prod.mk.injEq] at he
    exact ⟨u, hend, hp, he⟩
  · exact (hardwareRun_issued hc hd).completed_of_endsIn hend

/-! ## The counts, the two paths and the known vector -/

section results
variable {s t : State}

theorem withInputs_eq_self {moves : List Input} (h : s.inputs = moves) : s.withInputs moves = s := by
  subst h
  rfl

/-- From BUSY = 0 COMPUTE.HW sets BUSY only in entering HWRUN (42_compute_dispatch.md R171). -/
theorem phase_of_computeHw (hb : s.busy = false) (h : exec .computeHw s = .next t) (ht : t.busy = true) : t.phase = .hwrun := by
  cases issued_of_exec h with
  | raised he =>
    rw [raiseFor, raiseForWord, recordError_busy, hb] at ht
    cases ht
  | emptyHardware =>
    rw [show ({ s with result := s.seed } : State).busy = s.busy from rfl, hb] at ht
    cases ht
  | hardware hr hl => rfl

theorem busy_of_hwrun_step {u : State} (hi : s.inputs = []) (hb : s.busy = true) (hp : s.phase = .hwrun) (h : step s = .next u) :
    u.busy = false := by
  rw [step_of_nextIsEngine_of_busy (by simp [State.nextIsEngine, hi]) hb, engineStep, popped_phase, hp] at h
  obtain ⟨v, rfl⟩ | rfl := hwrunStep_next h
  · rfl
  · exact abortHardware_busy s.popped

end results

/-- Settles O33: the counted phases of the software path, and one engine step that ends the command in phases TBLGEN and HWRUN. -/
theorem stepCountsAreExact : Obligations.StepCountsAreExact := by
  unfold Obligations.StepCountsAreExact
  refine ⟨fun s bs hs hb hi ht hr hl hlen hm => ?_, fun s t u hi h hst => ?_, fun s t u hi hb h ht hst => ?_⟩
  · have halone := aloneAt_issued ⟨hs, hb, hr, hl, hlen, hm⟩ ht
    rw [withInputs_eq_self (show s.issuedSoftware.inputs = [] from hi)] at halone
    refine ⟨_, exec_computeSw_of_accepted hr hl ht, fun k hk => ?_⟩
    obtain hlt | rfl := Nat.lt_or_eq_of_le hk
    · obtain ⟨u, hu, ha⟩ := exists_aloneAt halone hlt
      exact ⟨u, hu, ha.phase, iff_of_true ha.run.running.busy hlt⟩
    · obtain ⟨u, hu, hub, hup, -⟩ := exists_alone_end halone
      exact ⟨u, hu, by rw [hup, phaseAt_idle], iff_of_false (by rw [hub]; decide) (Nat.lt_irrefl _)⟩
  · cases h
    rw [step_of_tblgen (s := beginLong .tblgen s) (by simp [State.nextIsEngine, hi]) rfl rfl] at hst
    cases hst
    exact ⟨rfl, rfl⟩
  · have hti : t.inputs = [] := (inputs_of_issued (issued_of_exec h)).trans hi
    exact busy_of_hwrun_step hti ht (phase_of_computeHw hb h ht) hst

/-- Settles O35: over an empty buffer both commands have written SEED at once; otherwise each path matches the reference. -/
theorem hardwareAndSoftwarePathsAgree : Obligations.HardwareAndSoftwarePathsAgree := by
  unfold Obligations.HardwareAndSoftwarePathsAgree
  intro s bs hs hb ht ha hr hlen hm
  by_cases hl : s.len = 0#32
  · have hidle : endsIn 0 ({ s with result := s.seed, inputs := [] }) { s with result := s.seed, inputs := [] } :=
      ⟨rfl, hb, nofun⟩
    refine ⟨_, _, exec_computeHw_of_empty ha hl, exec_computeSw_of_empty hl, ⟨0, _, hidle⟩, ⟨0, _, hidle⟩, ?_⟩
    intro moves moves' n n' u u' _ _ hu hu'
    rw [endsIn_of_idle hu hb, endsIn_of_idle hu' hb]
  · obtain ⟨t, hexec, ⟨u, hend, -⟩, hres⟩ := hardwareComputeMatchesReference s bs hs hb ha hr hl hlen hm
    obtain ⟨v, hexec', ⟨u', hend', -⟩, hres'⟩ := softwareComputeMatchesReference s bs hs hb ht hr hl hlen hm
    refine ⟨t, v, hexec, hexec', ⟨_, u, hend⟩, ⟨_, u', hend'⟩, ?_⟩
    intro moves moves' n n' u u' hd hd' hu hu'
    rw [(hres moves n u hd hu).1, (hres' moves' n' u' hd' hu').1]

/-- The checksum of the ASCII digits 1 to 9 (42_compute_dispatch.md R186). -/
theorem crc32cSpec_digits :
    crc32cSpec 0#32 [0x31#8, 0x32#8, 0x33#8, 0x34#8, 0x35#8, 0x36#8, 0x37#8, 0x38#8, 0x39#8] = 0xE3069283#32 := by
  simp only [crc32cSpec_eq_finish, List.foldl_cons, List.foldl_nil, byteStep_genTable]
  decide +kernel

/-- Settles O37: the checksum by evaluating row 0, and COMPUTE.SW left alone by its match with the reference. -/
theorem knownVector : Obligations.KnownVector := by
  unfold Obligations.KnownVector
  refine ⟨crc32cSpec_digits, fun s hs hb hi ht hseed hl hr hm => ?_⟩
  obtain ⟨t, hexec, ⟨u, hend, -⟩, hres⟩ := softwareComputeMatchesReference s _ hs hb ht (by rw [hl]; exact hr) (by rw [hl]; decide)
    (by rw [hl]; rfl) hm
  obtain ⟨hresult, -, -⟩ := hres [] _ u nofun hend
  obtain ⟨hrun, hub, -⟩ := hend
  have hti : t.withInputs [] = t := withInputs_eq_self ((inputs_of_issued (issued_of_exec hexec)).trans hi)
  rw [← State.withInputs, hti] at hrun
  exact ⟨t, u, _, hexec, hrun, hub, by rw [hresult, hseed, crc32cSpec_digits]⟩

end Sys2Proof.Machine
end

section
/-! PROOF. The host's accesses by their offset (10_state.md R23; 43_host_access_and_control.md R200-R202): the register an offset
names, what a read returns and a write reaches, and which accesses are bus errors. -/

namespace Sys2Proof.Machine

section access
variable {s : State} {off : DWord} {v : Word} {rest : List Input}

/-! ## The register map -/

/-- Below the TABLE window every offset after the twelve registers is reserved (10_state.md R34). -/
theorem Reg.ofOffset_of_reserved (hlo : 0x030 ≤ off.toNat) (hhi : off.toNat < 0x1000) :
    Reg.ofOffset off = .reserved (off.setWidth 12) := by
  unfold Reg.ofOffset
  split
  case h_13 => exact if_pos hhi
  all_goals omega

/-- The register at an aligned offset of the window lies at that offset alone (10_state.md R23, R35). -/
theorem Reg.offset_ofOffset (hw : off.toNat < 0x3000) (hl : off.toNat % 4 = 0) : (Reg.ofOffset off).offset = off := by
  unfold Reg.ofOffset
  split
  case h_13 =>
    apply BitVec.eq_of_toNat_eq
    split
    · simp only [Reg.offset, BitVec.toNat_setWidth]
      omega
    · rename_i hlo
      have hsub : (off - 0x1000#64).toNat = off.toNat - 0x1000 := BitVec.toNat_sub_of_le (Nat.not_lt.mp hlo)
      simp only [Reg.toNat_offset_table, BitVec.extractLsb'_toNat, hsub, Nat.shiftRight_eq_div_pow]
      omega
  all_goals
    rename_i hoff
    exact (BitVec.eq_of_toNat_eq hoff).symm

/-- A register outside CMD, SEED, LEN and the halves of ADDR and DATA ignores writes (43_host_access_and_control.md R202). -/
theorem writeRegister_of_ignored {r : Reg}
    (h : r.offset ∉ [0x008#64, 0x00C#64, 0x010#64, 0x014#64, 0x018#64, 0x01C#64, 0x020#64]) (v : Word) (s : State) :
    writeRegister r v s = .next s := by
  cases r
  case cmd | seed | len | addrLo | addrHi | dataLo | dataHi => exact absurd (by decide) h
  all_goals rfl

/-! ## Reads and writes -/

/-- Taking a move from the queue changes no register. -/
theorem readRegister_popped (s : State) (r : Reg) : readRegister s.popped r = readRegister s r := by
  cases r <;> rfl

/-- STATUS as R201 writes it, BUSY in bit 0 without a shift. -/
theorem statusWord_eq (s : State) :
    statusWord s = ((phaseBits s.phase).setWidth 32 <<< 16 ||| (errBits s.errcode).setWidth 32 <<< 8 |||
      (BitVec.ofBool s.errovf).setWidth 32 <<< 4 ||| (BitVec.ofBool s.hwAvail).setWidth 32 <<< 3 |||
      (BitVec.ofBool s.accValid).setWidth 32 <<< 2 ||| (BitVec.ofBool s.tblValid).setWidth 32 <<< 1 |||
      (BitVec.ofBool s.busy).setWidth 32) := by
  simp only [statusWord, flagBit, BitVec.shiftLeft_zero]

theorem step_of_read (hi : s.inputs = .host ⟨off, .w32, .read⟩ :: rest) (hw : off.toNat < 0x3000) (hl : off.toNat % 4 = 0)
    (h : readRegister s (Reg.ofOffset off) = some v) : step s = .next { s.popped with response := some (.value v) } := by
  rw [step_of_inputs_cons hi]
  exact hostAccess_read hw hl ((readRegister_popped s _).trans h)

/-- A register that answers no value answers a bus error (10_state.md R36). -/
theorem step_of_read_none (hi : s.inputs = .host ⟨off, .w32, .read⟩ :: rest) (hw : off.toNat < 0x3000) (hl : off.toNat % 4 = 0)
    (h : readRegister s (Reg.ofOffset off) = none) : step s = .next (hostBusError s.popped) := by
  rw [step_of_inputs_cons hi]
  simp [inputStep, hostAccess, HostAccess.inWindow, HostAccess.legal, hw, hl, readRegister_popped, h]

theorem step_of_write (hi : s.inputs = .host ⟨off, .w32, .write v⟩ :: rest) (hw : off.toNat < 0x3000) (hl : off.toNat % 4 = 0) :
    step s = writeRegister (Reg.ofOffset off) v s.atCommand := by
  rw [step_of_inputs_cons hi]
  exact hostAccess_write hw hl v s.popped

/-! ## Accesses the port does not carry -/

theorem HostAccess.legal_eq_false {a : HostAccess} (h : a.width ≠ .w32 ∨ a.off.toNat % 4 ≠ 0) : a.legal = false := by
  rw [HostAccess.legal, Bool.and_eq_false_iff, decide_eq_false_iff_not, decide_eq_false_iff_not]
  exact h

theorem hostAccess_of_illegal {a : HostAccess} (hw : a.off.toNat < 0x3000) (h : a.width ≠ .w32 ∨ a.off.toNat % 4 ≠ 0)
    (s : State) : hostAccess a s = .next (hostBusError s) := by
  simp [hostAccess, a.inWindow_iff.mpr hw, HostAccess.legal_eq_false h]

theorem hostAccess_of_outside {a : HostAccess} (hw : 0x3000 ≤ a.off.toNat) (s : State) : hostAccess a s = .next s := by
  have hout : a.inWindow = false := decide_eq_false (by omega)
  exact if_pos hout

end access

/-! ## The obligations -/

/-- Settles O42: inside the window an access that is not legal is a bus error, and outside it the block does not answer. -/
theorem illegalAccessesAreBusErrors : Obligations.IllegalAccessesAreBusErrors := by
  unfold Obligations.IllegalAccessesAreBusErrors
  intro s a rest hi
  rw [step_of_inputs_cons hi]
  exact ⟨fun hw h => hostAccess_of_illegal hw h s.popped, fun hw => hostAccess_of_outside hw s.popped⟩

/-- Settles O39: each offset names its register, whose value is the answer; only the TABLE window can have none. -/
theorem readsFollowTheRegisterMap : Obligations.ReadsFollowTheRegisterMap := by
  unfold Obligations.ReadsFollowTheRegisterMap
  intro s off rest hi hl returns
  have answers {v : Word} (hw : off.toNat < 0x3000) (h : readRegister s (Reg.ofOffset off) = some v) : returns v :=
    step_of_read hi hw hl h
  refine ⟨?poly, ?status, ?cmd, ?seed, ?len, ?addrLo, ?addrHi, ?dataLo, ?dataHi, ?result, ?errinfoLo, ?errinfoHi,
    ?reserved, ?table, ?noTable⟩
  case status =>
    rintro rfl
    exact answers (by decide) (congrArg some (statusWord_eq s))
  case reserved =>
    intro hlo hhi
    exact answers (by omega) (by rw [Reg.ofOffset_of_reserved hlo (by omega)]; rfl)
  case table =>
    intro hlo hhi hv
    exact answers (by omega) (by rw [Reg.ofOffset_of_le hlo]; exact if_pos hv)
  case noTable =>
    intro hlo hhi hv
    exact step_of_read_none hi (by omega) hl (by rw [Reg.ofOffset_of_le hlo]; simp [readRegister, hv])
  all_goals
    rintro rfl
    exact answers (by decide) rfl

/-- Settles O40: each writable offset names its register, and every other offset names one that ignores writes. -/
theorem writesFollowTheRegisterMap : Obligations.WritesFollowTheRegisterMap := by
  unfold Obligations.WritesFollowTheRegisterMap
  intro s off v rest hi hl hw
  have hstep := step_of_write hi (by omega) hl
  refine ⟨?cmd, ?seed, ?len, ?addrLo, ?addrHi, ?dataLo, ?dataHi, ?ignored⟩
  case ignored =>
    intro hoff
    exact hstep.trans (writeRegister_of_ignored (by rwa [Reg.offset_ofOffset (by omega) hl]) v s.atCommand)
  all_goals
    rintro rfl
    exact hstep

end Sys2Proof.Machine
end

section
/-! PROOF. CLRERR (43_host_access_and_control.md R204): what it clears, when its word is accepted, and STATUS after it. -/

namespace Sys2Proof.Machine

section clrerr
variable {s : State}

/-- With no error recorded the invariant keeps ERROVF and ERRINFO 0, so there is nothing to clear. -/
theorem clearError_of_none (hs : Inv s) (he : s.errcode = .none) : clearError s = s := by
  obtain ⟨hinfo, hovf⟩ := hs.noError he
  rw [clearError, ← he, ← hovf, ← hinfo]

/-- The word of CLRERR is accepted whether or not an error is recorded (60_exceptions.md R225, R226). -/
theorem submitCommand_clrerr (hb : s.busy = false) : submitCommand (encode .clrerr) s = exec .clrerr s := by
  by_cases he : s.errcode = .none
  · rw [submitCommand_of_idle hb he, runWord_encode]
  · have hw : encode .clrerr = 0x00000002#32 := by decide
    simp [submitCommand, hb, he, hw]

/-- In STATUS clearing the error state clears ERRCODE, bits 11:8, and ERROVF, bit 4. -/
theorem statusWord_clearError (s : State) : statusWord (clearError s) = statusWord s &&& 0xFFFFF0EF#32 := by
  apply BitVec.eq_of_getLsbD_eq
  intro i hi
  rw [BitVec.getLsbD_and, getLsbD_statusWord, getLsbD_statusWord]
  interval_cases i <;> simp [errBits, BitVec.getLsbD_of_ge]

end clrerr

/-- Settles O46: CLRERR clears the error state and its word passes both acceptance checks but BUSY; ACC_VALID is set by INIT and
COMPUTE.SW alone, by the summary of its changes. -/
theorem clrerrClearsTheErrorState : Obligations.ClrerrClearsTheErrorState := by
  unfold Obligations.ClrerrClearsTheErrorState
  refine ⟨by decide, fun s => ⟨rfl, fun hs he => ?_, submitCommand_clrerr, fun w hb he hw => submitCommand_of_error hb he hw,
    fun hb => submitCommand_of_busy hb _, fun h => ⟨clearError s, rfl, ?_, rfl⟩, fun t h hs ht => ?_⟩⟩
  · exact congrArg Host.Outcome.next (clearError_of_none hs he)
  · rw [statusWord_clearError, h]
    decide
  · exact ((accValidChangesOnlyAsSummarised s t h).1 hs ht).imp_right And.left

end Sys2Proof.Machine
end

section
/-! PROOF. A CMD write (60_exceptions.md R225): each case of SubmitCommand as a whole step. The ghost FAULTED (R224): what every
outcome of a step leaves of it. -/

namespace Sys2Proof.Machine

/-! ## The step that takes a CMD write -/

section command
variable {s : State} {w : Word} {i : Instr}

/-- withFetchWord places the write of the whole word (20_memory.md R80): 32 bits of it are no fewer than it has. -/
theorem nextIsCommand_withFetchWord (s : State) (w : Word) : (s.withFetchWord 32 w.toNat).nextIsCommand w = true := by
  have hw : BitVec.ofNat 32 (w.toNat % 2 ^ 32) = w := by
    rw [Nat.mod_eq_of_lt w.isLt, BitVec.ofNat_toNat, BitVec.setWidth_eq]
  apply nextIsCommand_of_head
  rw [State.withFetchWord, hw, List.head?_cons]

theorem atCommand_withFetchWord (s : State) (nbits n : Nat) : (s.withFetchWord nbits n).atCommand = respond .done s := rfl

/-- An accepted legal word has the issue rule of the instruction it decodes to (60_exceptions.md R225). -/
theorem step_of_decoded (hc : s.nextIsCommand w = true) (hb : s.busy = false) (he : s.errcode = .none)
    (hd : decode w = .ok i) : step s = exec i s.atCommand := by
  obtain rfl := encode_of_decode_eq_ok hd
  exact step_of_command hb he hc

end command

/-! ## The ghost FAULTED -/

section faulted
variable {s t : State} {i : Instr}

theorem faulted_of_issued (h : Issued s i t) (hf : s.faulted = true) : t.faulted = true := by
  cases h with
  | raised he => exact recordError_faulted s _ _
  | _ => exact hf

theorem faulted_of_engined (h : Engined s t) (hf : s.faulted = true) : t.faulted = true := by
  cases h with
  | refused h => exact recordError_faulted s .busError s.cur
  | hwRefused hp hm => exact recordError_faulted s .busError (drawRefused s)
  | finish hp | hwrun hp bs hm => rw [endLong_faulted, deliverResult_faulted, hf]
  | _ => exact hf

/-- No outcome of a step clears FAULTED, the reset's and CLRERR's included (60_exceptions.md R224). -/
theorem faulted_of_stepped (h : Stepped s t) (hf : s.faulted = true) : t.faulted = true := by
  cases h with
  | quiet h hm => exact (congrArg State.faulted h :).trans hf
  | engine _ hb h => exact faulted_of_engined (s := s.popped) h hf
  | whileBusy w _ hb => exact recordError_faulted s.atCommand _ _
  | illegal w _ hb he hd => exact recordError_faulted s.atCommand _ _
  | issued i hc hb he h => exact faulted_of_issued (s := s.atCommand) h hf
  | cleared _ _ | discarded _ _ _ _ _ | reset _ _ _ _ => exact hf

end faulted

/-! ## The obligations -/

/-- Settles O6: the step is SubmitCommand of the word, and the acceptance checks, then the decoder, choose its case. -/
theorem submitCommandHandlesEveryWord : Obligations.SubmitCommandHandlesEveryWord := by
  unfold Obligations.SubmitCommandHandlesEveryWord
  intro s w hc
  refine ⟨fun hb => ?busy, fun hb _ hw => ?clrerr, fun hb he hw => ?discarded, fun hb he hd => ?illegal,
    fun i hb he hd => step_of_decoded hc hb he hd⟩
  all_goals rw [step_of_nextIsCommand hc]
  case busy => exact submitCommand_of_busy (s := s.atCommand) hb w
  case clrerr =>
    have hclr : w = encode .clrerr := hw.trans (by decide)
    rw [hclr]
    exact submitCommand_clrerr (s := s.atCommand) hb
  case discarded => exact submitCommand_of_error (s := s.atCommand) hb he hw
  case illegal =>
    rw [submitCommand_of_idle (s := s.atCommand) hb he]
    exact runWord_of_illegal hd

/-- Settles O47: the two cases of RecordError, and FAULTED over every outcome of a step. -/
theorem firstErrorIsKept : Obligations.FirstErrorIsKept := by
  unfold Obligations.FirstErrorIsKept
  exact ⟨fun e info _ => ⟨fun h => recordError_of_none h e info, fun h => recordError_of_some h e info⟩,
    fun _ _ h => faulted_of_stepped (stepped_of_step h)⟩

/-- Settles O60: the invariant shuts out the engine's three faults, and no other move can stop. -/
theorem noStepStops : Obligations.NoStepStops := by
  unfold Obligations.NoStepStops
  intro s hs
  obtain ⟨t, h, -⟩ := exists_step hs
  exact ⟨t, h⟩

/-- Settles O5: both states have the write of the word as their next move, and taking it leaves exec's argument. -/
theorem stepRunsDecodedCommand : Obligations.StepRunsDecodedCommand := by
  unfold Obligations.StepRunsDecodedCommand
  intro s w i hb he hd
  refine ⟨fun hc => step_of_decoded hc hb he hd, ?_⟩
  rw [step_of_decoded (s := s.withFetchWord 32 w.toNat) (nextIsCommand_withFetchWord s w) hb he hd, atCommand_withFetchWord]

end Sys2Proof.Machine
end

section
/-! PROOF. An instant of asserted reset (70_reset_and_hazards.md R260, R261): the port's answer to an access that arrives, and the
registers of a block that holds its reset values (10_state.md R48). -/

namespace Sys2Proof.Machine

/-! ## A carried write is answered, whatever its register does -/

section response
variable {s t : State} {i : Instr}

theorem response_of_issued (h : Issued s i t) : t.response = s.response := by
  cases h with
  | raised he => exact recordError_response s _ _
  | _ => rfl

theorem response_of_submitCommand {w : Word} (h : submitCommand w s = .next t) : t.response = s.response := by
  obtain ⟨-, rfl⟩ | ⟨-, -, -, rfl⟩ | ⟨-, -, -, rfl⟩ | ⟨-, -, -, rfl⟩ | ⟨-, -, i, -, hx⟩ := submitCommand_next h
  case inr.inr.inr.inr => exact response_of_issued (issued_of_exec hx)
  case inl | inr.inr.inr.inl => exact recordError_response s _ _
  all_goals rfl

theorem response_of_writeRegister {r : Reg} {v : Word} (h : writeRegister r v s = .next t) : t.response = s.response := by
  cases r with
  | cmd => exact response_of_submitCommand h
  | _ => cases h; rfl

/-- Every register lies in the window (10_state.md R23). -/
theorem Reg.offset_lt (r : Reg) : r.offset.toNat < 0x3000 := by
  cases r with
  | reserved off =>
    rw [Reg.offset, BitVec.toNat_setWidth]
    omega
  | table j i =>
    rw [Reg.toNat_offset_table]
    omega
  | _ => decide

/-- An aligned register write is answered as carried (43_host_access_and_control.md R202). -/
theorem exists_hostAccess_wr {r : Reg} (hl : r.offset.toNat % 4 = 0) (v : Word) (s : State) :
    ∃ t, hostAccess (HostAccess.wr r v) s = .next t ∧ t.response = some .done := by
  rw [HostAccess.wr, hostAccess_write r.offset_lt hl]
  obtain ⟨t, ht⟩ := exists_writeRegister (Reg.ofOffset r.offset) v (respond .done s)
  exact ⟨t, ht, response_of_writeRegister ht⟩

end response

/-! ## The answer at an instant of reset -/

section held
variable {s t : State} {p : Bool} {a : HostAccess}

/-- An access is answered as the block holding its reset values answers it (log entry 16). -/
theorem resetMove_response_of_next (h : hostAccess a (applyReset p s) = .next t) :
    (resetMove p (some a) s).response = t.response := by
  rw [resetMove, h]

theorem resetMove_response_wr {r : Reg} (hl : r.offset.toNat % 4 = 0) (v : Word) :
    (resetMove p (some (HostAccess.wr r v)) s).response = some .done := by
  obtain ⟨t, ht, hr⟩ := exists_hostAccess_wr hl v (applyReset p s)
  rw [resetMove_response_of_next ht, hr]

/-- A read is answered with the register's value in the block at reset. -/
theorem resetMove_response_rd {r : Reg} {v : Word} (hl : r.offset.toNat % 4 = 0)
    (h : readRegister (applyReset p s) (Reg.ofOffset r.offset) = some v) :
    (resetMove p (some (HostAccess.rd r)) s).response = some (.value v) :=
  resetMove_response_of_next (hostAccess_read r.offset_lt hl h)

/-- In STATUS of the block at reset every field but HW_AVAIL is 0. -/
theorem statusWord_applyReset (p : Bool) (s : State) : statusWord (applyReset p s) = (BitVec.ofBool p).setWidth 32 <<< 3 := by
  rw [statusWord_eq]
  simp [State.reset, phaseBits, errBits]

/-- The registers that read 0 at reset (10_state.md R48): the operands, RESULT and ERRINFO. -/
def Reg.clearedAtReset : List Reg := [.seed, .len, .addrLo, .addrHi, .dataLo, .dataHi, .result, .errinfoLo, .errinfoHi]

theorem Reg.ofOffset_offset_of_clearedAtReset :
    ∀ r ∈ Reg.clearedAtReset, r.offset.toNat % 4 = 0 ∧ Reg.ofOffset r.offset = r := by decide

theorem highHalf_zero : highHalf 0#64 = 0#32 := by decide

theorem readRegister_applyReset {r : Reg} (hr : r ∈ Reg.clearedAtReset) (p : Bool) (s : State) :
    readRegister (applyReset p s) r = some 0#32 := by
  cases r with
  | seed | len | addrLo | dataLo | result | errinfoLo => rfl
  | addrHi | dataHi | errinfoHi => exact congrArg some highHalf_zero
  | poly | status | cmd | reserved off | table j i => simp [Reg.clearedAtReset] at hr

theorem resetMove_response_rd_of_cleared {r : Reg} (hr : r ∈ Reg.clearedAtReset) :
    (resetMove p (some (HostAccess.rd r)) s).response = some (.value 0#32) := by
  obtain ⟨hl, hoff⟩ := Reg.ofOffset_offset_of_clearedAtReset r hr
  refine resetMove_response_rd hl ?_
  rw [hoff]
  exact readRegister_applyReset hr p s

theorem engineTurn_of_idle (h : s.busy = false) : engineTurn s = .next s := by
  rw [engineTurn, h, if_neg Bool.false_ne_true]

end held

/-- Settles O56: the move takes the reset values whatever access arrives, and the answer is the one a block at reset gives. -/
theorem resetAbandonsTheCommand : Obligations.ResetAbandonsTheCommand := by
  unfold Obligations.ResetAbandonsTheCommand
  intro s p access rest hi
  have hrest : s.popped.inputs = rest := congrArg List.tail hi
  obtain ⟨answer, f, ht⟩ := resetMove_eq p access s.popped
  have hanswer : answer = (resetMove p access s.popped).response := (congrArg State.response ht).symm
  refine ⟨_, (step_of_inputs_cons hi).trans (congrArg Host.Outcome.next ht), rfl, rfl, engineTurn_of_idle rfl, rfl, rfl, rfl,
    rfl, rfl, rfl, rfl, rfl, rfl, rfl, rfl, rfl, hrest, rfl, ?noAccess, ?write, ?status, ?read⟩
  case noAccess =>
    rintro rfl
    exact hanswer
  case write =>
    rintro r v hl rfl
    exact hanswer.trans (resetMove_response_wr hl v)
  case status =>
    rintro rfl
    exact hanswer.trans (resetMove_response_rd (by decide) (congrArg some (statusWord_applyReset p s.popped)))
  case read =>
    rintro r hr rfl
    exact hanswer.trans (resetMove_response_rd_of_cleared hr)

end Sys2Proof.Machine
end
